-- ==== Sys2Proof/Word.lean ====
section
/-!
DEFINITION. The words of the block (spec 00_scope.md R8, 30_encoding.md R50): a byte, a command word, the opcode field.
Every value of the hardware is unsigned; bit 0 is the least significant bit.
-/

namespace Sys2Proof

/-- Eight bits, unsigned: the accumulator, the snapshot, one input byte (R11, R12, R52). -/
abbrev Byte := BitVec 8

/-- One command word `cmd[10:0]` (R50). -/
abbrev CmdWord := BitVec 11

end Sys2Proof
end

