-- ==== Sys2Proof/Config.lean ====
section
/-!
DEFINITION. What an implementation fixes (00_scope.md R7): the three open parameters, with the premise that they lie in
the ranges the spec allows, their default values, and the one free value of the model.
-/

namespace Sys2Proof

/-- `MALFORMED_POLICY`: what a malformed data line does (R7; 92_eei_decisions.md D10). -/
inductive MalformedPolicy where
  /-- Report the line, count it in SKIPPED and go on. -/
  | skip
  /-- Report the line and fault. -/
  | fatal
deriving DecidableEq, Repr

/-- The open parameters of the block, fixed for its life (R7). -/
structure Params where
  /-- `EXP_W`, the width of EXP. -/
  expW : Nat
  /-- `CNT_W`, the width of LINEIDX, CHECKED, FAILED and SKIPPED. -/
  cntW : Nat
  /-- `MALFORMED_POLICY`. -/
  policy : MalformedPolicy
deriving DecidableEq, Repr

/-- The ranges R7 gives: `EXP_W >= 9` and `CNT_W >= 2` (premise LP3 of 70_reset_and_hazards.md R161). -/
abbrev Params.valid (p : Params) : Prop := 9 ≤ p.expW ∧ 2 ≤ p.cntW

/-- The defaults of R7: `EXP_W = 16`, `CNT_W = 32`, `MALFORMED_POLICY = SKIP`. -/
def Params.default : Params := { expW := 16, cntW := 32, policy := .skip }

/-- `2^EXP_W - 1`, the ceiling of EXP (R13). -/
abbrev Params.expMax (p : Params) : Nat := 2 ^ p.expW - 1

/-- `2^CNT_W - 1`, the ceiling of the counters (R14). -/
abbrev Params.cntMax (p : Params) : Nat := 2 ^ p.cntW - 1

/-- FREE VALUE (notes/assumptions/10.md). While BUSY is 1 a status read returns the value from before the CHAR or the
one from after it (10_state.md R30), and the spec does not say which: true where, at this clock edge and for this
status register number, it is the one from after. Nothing constrains it. -/
opaque Config.busyReadSeesAfter : Nat → BitVec 3 → Bool

end Sys2Proof
end

