-- ==== Sys2Proof/Machine/State.lean ====
section
/-!
DEFINITION. Everything the spec gives the block: the registers of 10_state.md R11 to R24 and R35, the hidden registers
of R30, the events emitted (30_encoding.md R60), and what the host is going to present (70_reset_and_hazards.md R150,
R155). State.reset is the state of R32. The block has no memory (20_memory.md R40).
-/

namespace Sys2Proof.Machine

/-- PHASE, 2 bits, all four values legal (R19). -/
inductive Phase where
  /-- 0: no run started since reset. -/
  | idle
  /-- 1: a run is in progress and a line is open. -/
  | run
  /-- 2: the last run ended with EOS and a SUMMARY. -/
  | done
  /-- 3: the last run ended with a fault, and CAUSE says why. -/
  | faulted
deriving DecidableEq, Repr

/-- CAUSE, 4 bits: the seven codes that are ever written (R20; 60_exceptions.md R121). -/
inductive Cause where
  /-- 0: no fault. -/
  | none
  /-- 1: ABORT (R122). -/
  | resourceAccess
  /-- 2: a data line without a delimiter (R123). -/
  | malformedNoDelimiter
  /-- 3: a data line whose trailing field is not a number (R124). -/
  | malformedBadInteger
  /-- 4: a reserved word (R127). -/
  | illegalCommand
  /-- 5: a command out of place (R128). -/
  | protocol
  /-- 6: an EOL with LINEIDX at its ceiling (R129). -/
  | counterOverflow
deriving DecidableEq, Repr

/-- One event record: a kind and its fields (30_encoding.md R60 to R62). -/
inductive Event where
  /-- Kind 1, by START. -/
  | runBegin
  /-- Kind 2, by EOL on the header line. -/
  | header (lineidx : Nat) (nodelim : Bool)
  /-- Kind 3, by EOL on a well-formed data line. -/
  | progress (lineidx : Nat)
  /-- Kind 4, by EOL on a well-formed data line whose checksum differs. -/
  | mismatch (lineidx : Nat) (expected : Nat) (expOvf : Bool) (actual : Byte)
  /-- Kind 5, by EOL on a malformed data line. -/
  | malformed (lineidx : Nat) (cause : Cause)
  /-- Kind 6, by EOS. -/
  | summary (checked : Nat) (failed : Nat) (skipped : Nat)
  /-- Kind 7, by fault entry. -/
  | fault (cause : Cause) (lineidx : Nat)
deriving DecidableEq, Repr

/-- One thing the host does to the block between commands (70_reset_and_hazards.md R152): present a command word, which
is accepted, or assert reset (R150). -/
inductive PortInput where
  | command (w : CmdWord)
  | reset
deriving DecidableEq, Repr

/-- The state record of the spec: exactly the registers of 10_state.md R11 to R24 and R35 and the hidden ones of R30, and
nothing else (R33). EXP and the four counters are natural numbers held under their ceilings by an invariant
(notes/assumptions/3.md; R7 allows them unbounded). -/
structure Registers where
  /-- ACC, the CRC accumulator (R11). -/
  acc : Byte
  /-- SNAP, the payload checksum snapshot (R12). -/
  snap : Byte
  /-- EXP, the expected checksum, `EXP_W` bits (R13). -/
  exp : Nat
  /-- LINEIDX, the line index, `CNT_W` bits (R14). -/
  lineIdx : Nat
  /-- CHECKED, `CNT_W` bits (R15). -/
  checked : Nat
  /-- FAILED, `CNT_W` bits (R16). -/
  failed : Nat
  /-- SKIPPED, `CNT_W` bits (R17). -/
  skipped : Nat
  /-- PHASE (R19). -/
  phase : Phase
  /-- CAUSE (R20). -/
  cause : Cause
  /-- SEEN: a delimiter has been received in this line (R21). -/
  seen : Bool
  /-- HASDIG: a digit since the last delimiter (R22). -/
  hasDig : Bool
  /-- BADCH: a byte that is neither delimiter nor digit since the last delimiter (R23). -/
  badCh : Bool
  /-- EXP_OVF: EXP is clipped (R24). -/
  expOvf : Bool
  /-- DIRTY: a CHAR since the last START or EOL (R35). -/
  dirty : Bool
  /-- SHR, hidden: what is left of the input byte (R30). -/
  shr : Byte
  /-- BITCNT, hidden: the bit steps done (R30). -/
  bitCnt : BitVec 4
  /-- BUSY, hidden: the engine is at work (R30). -/
  busy : Bool
deriving DecidableEq, Repr

/-- The machine as a step over one value: the block's state record, and beside it the three things that R33 says are no
state of the block, its parameters, the events already emitted and what the host will present. They stand here because
`step` has no other argument and no other result; what a step makes of the registers is a function of the parameters,
the registers and the word alone (Machine/Runs.lean, `Registers.command`). -/
structure State extends registers : Registers where
  /-- The parameters of R7, fixed for the life of the block and never written (notes/assumptions/2.md). -/
  params : Params
  /-- The events emitted, oldest first: append-only, read back by no rule (R33; 70_reset_and_hazards.md R157, R161;
  notes/assumptions/4.md). -/
  output : List Event
  /-- What the host is going to do, in order (20_memory.md R41, R46; notes/assumptions/1.md). -/
  input : List PortInput
deriving DecidableEq, Repr

/-- The reset state of R32 for a block with the given parameters: every register is zero and PHASE is IDLE. -/
def State.resetWith (p : Params) : State :=
  { params := p, acc := 0x00, snap := 0x00, exp := 0, lineIdx := 0, checked := 0, failed := 0, skipped := 0,
    phase := .idle, cause := .none, seen := false, hasDig := false, badCh := false, expOvf := false, dirty := false,
    shr := 0x00, bitCnt := 0, busy := false, output := [], input := [] }

/-- The machine right after reset (R32, R150), with the parameters at their defaults (R7): nothing has been emitted and
the host has presented nothing. -/
def State.reset : State := State.resetWith Params.default

/-- Why the machine could stop with a fault: it never does, so there is no constructor. The faults of the spec are
states of the block (PHASE FAULTED, 60_exceptions.md R126), reached by a next state. Safe: no step ends here. -/
inductive Fault where
deriving DecidableEq, Repr

/-- Why the model could answer with no meaning. -/
inductive Refusal where
  /-- An instruction without a meaning yet. Raised by no arm: every command has its meaning. Safe. -/
  | notModelled (mnemonic : String)
  /-- The host changed `cmd` while `cmd_valid` was high and `cmd_ready` low: "which word is accepted would be undefined;
  the model has no such step" (70_reset_and_hazards.md R152). Raised by the signal-level machine of Machine/Ports.lean
  only, never by `exec` or `step`. Unsafe: a claim covers no host that does this (notes/assumptions/12.md). -/
  | unstableCommand
deriving DecidableEq, Repr

end Sys2Proof.Machine
end

