-- ==== Sys2Proof/Machine/Ops.lean ====
section
/-!
DEFINITION. The named operations over the registers, each a plain update of State that the commands share: emitting an
event, entering a fault (60_exceptions.md R126) and leaving it (42_run_commands.md R111), reset (R150), closing a line
(R98), the counters, and what CHAR notes of a byte (R93).
-/

namespace Sys2Proof.Machine

/-- `emit E(...)`: append one event to the output (00_scope.md R8, R60). -/
def State.emit (e : Event) (s : State) : State :=
  { s with output := s.output ++ [e] }

/-- FAULT ENTRY, the block's only exception: `raise c` writes PHASE and CAUSE, emits FAULT(c, LINEIDX), and does nothing
more: no other register is written and control goes nowhere (R126). -/
def State.raise (c : Cause) (s : State) : State :=
  State.emit (.fault c s.lineIdx) { s with phase := .faulted, cause := c }

/-- What a command does in phase FAULTED, START apart: it is accepted, changes no register and emits no event (R115). -/
def State.ignoreCommand (s : State) : State := s

/-- THE WAY OUT OF A FAULT, and into every run: START rewrites every register it names and emits RUN_BEGIN (R111). There
is no other return from a fault but reset (R133). The hidden engine registers are not among those R111 names
(notes/assumptions/8.md). -/
def State.beginRun (s : State) : State :=
  State.emit .runBegin
    { s with
      phase := .run, cause := .none,
      lineIdx := 0, checked := 0, failed := 0, skipped := 0,
      acc := 0x00, snap := 0x00, exp := 0,
      seen := false, hasDig := false, badCh := false, expOvf := false, dirty := false }

/-- EOS ends the run: PHASE becomes DONE (R112). -/
def State.endRun (s : State) : State :=
  { s with phase := .done }

/-- RESET: every register takes the value of R32, hidden ones included; no event is emitted, the events of completed
commands stay in the list, and the parameters are fixed for the life of the block (R150, R33). -/
def State.resetBlock (s : State) : State :=
  { State.resetWith s.params with output := s.output, input := s.input }

/-- Closing a line: LINEIDX advances and every per-line register is cleared (R98). -/
def State.closeLine (s : State) : State :=
  { s with
    lineIdx := s.lineIdx + 1,
    acc := 0x00, snap := 0x00, exp := 0,
    seen := false, hasDig := false, badCh := false, expOvf := false, dirty := false }

/-- `CHECKED <- CHECKED + 1` (R96). -/
def State.countChecked (s : State) : State :=
  { s with checked := s.checked + 1 }

/-- `FAILED <- FAILED + 1` (R96). -/
def State.countFailed (s : State) : State :=
  { s with failed := s.failed + 1 }

/-- `SKIPPED <- SKIPPED + 1` (R97). -/
def State.countSkipped (s : State) : State :=
  { s with skipped := s.skipped + 1 }

/-- A delimiter is received: SNAP takes the checksum of everything before it and the trailing field restarts (R93). -/
def State.noteDelimiter (s : State) : State :=
  { s with snap := s.acc, seen := true, exp := 0, expOvf := false, hasDig := false, badCh := false }

/-- A digit is received after a delimiter: EXP and EXP_OVF take the values given, and HASDIG is set (R93). -/
def State.noteDigit (e : Nat) (ovf : Bool) (s : State) : State :=
  { s with exp := e, expOvf := ovf, hasDig := true }

/-- A byte that is neither delimiter nor digit is received after a delimiter (R93). -/
def State.noteOther (s : State) : State :=
  { s with badCh := true }

/-- The line has at least one byte (R35, R93). -/
def State.markDirty (s : State) : State :=
  { s with dirty := true }

/-- The engine takes a byte: `SHR <- d`, `BITCNT <- 0`, `BUSY <- 1` (40_crc_engine.md R82). -/
def State.loadEngine (d : Byte) (s : State) : State :=
  { s with shr := d, bitCnt := 0, busy := true }

/-- The host's next action has been taken from the input. -/
def State.withInput (rest : List PortInput) (s : State) : State :=
  { s with input := rest }

end Sys2Proof.Machine
end

