-- ==== Sys2Proof/Machine/Engine.lean ====
section
/-!
DEFINITION. The Checksum Engine (40_crc_engine.md): BITSTEP (R70), BYTESTEP (R71), COMPUTE (R72), the map F of the merge
law (R76), and the bit-serial sequencing of the hidden registers SHR, BITCNT and BUSY (R82).
-/

namespace Sys2Proof.Machine

/-- `POLY`, the feedback constant (R7, R75). -/
def poly : Byte := 0x8C

/-- `INIT`, the accumulator at the start of every payload (R7). -/
def crcInit : Byte := 0x00

/-- `feedback = (b XOR acc) AND 1`, from the accumulator before it is shifted (R70). -/
def feedback (acc b : Byte) : Bool :=
  (b ^^^ acc) &&& 1 == 1

/-- BITSTEP: one bit position of the inner loop, giving the new accumulator and what is left of the byte (R70). -/
def bitStep (acc b : Byte) : Byte × Byte :=
  let a1 := acc >>> 1
  (if feedback acc b then a1 ^^^ poly else a1, b >>> 1)

/-- `n` bit steps, one after another. -/
def bitSteps : Nat → Byte → Byte → Byte × Byte
  | 0, acc, b => (acc, b)
  | n + 1, acc, b => bitSteps n (bitStep acc b).1 (bitStep acc b).2

/-- BYTESTEP: eight bit steps, least significant bit first (R71, R42). -/
def byteStep (acc b : Byte) : Byte := (bitSteps 8 acc b).1

/-- COMPUTE: the checksum of a payload; no final XOR, no reflection (R72). -/
def compute (payload : List Byte) : Byte := payload.foldl byteStep crcInit

/-- The map F of the merge law: the bit step on `acc XOR b` (R76). -/
def mergedStep (s : Byte) : Byte :=
  (s >>> 1) ^^^ (if s &&& 1 == 1 then poly else 0x00)

/-- The table T of the table law, `T[x] = BYTESTEP(0x00, x)` (R77). -/
def crcTable (x : Byte) : Byte := byteStep 0x00 x

/-- "When BITCNT reaches 8: `BUSY <- 0`, `BITCNT <- 0`" (R82). -/
def State.engineSettle (s : State) : State :=
  if s.bitCnt < 8 then s else { s with bitCnt := 0, busy := false }

/-- One bit step of the engine on the hidden registers: `(ACC, SHR) <- BITSTEP(ACC, SHR)`, `BITCNT <- BITCNT + 1`, while
BITCNT is below 8 (R82). BUSY falls with the eighth (R30; notes/assumptions/7.md). -/
def State.engineTick (s : State) : State :=
  if s.bitCnt < 8 then
    State.engineSettle
      { s with
        acc := (bitStep s.acc s.shr).1,
        shr := (bitStep s.acc s.shr).2,
        bitCnt := s.bitCnt + 1 }
  else s.engineSettle

/-- At most `n` bit steps, as long as BUSY is 1 (R82). -/
def State.runEngine : Nat → State → State
  | 0, s => s
  | n + 1, s => if s.busy then State.runEngine n s.engineTick else s

/-- The engine runs until BUSY falls: eight bit steps are enough from every value of BITCNT (R82). -/
def State.finishByte (s : State) : State := State.runEngine 8 s

end Sys2Proof.Machine
end

