-- ==== Sys2Proof/Machine/Operands.lean ====
section
/-!
DEFINITION. The operand byte of CHAR as the line validator sees it: its class, the value of a digit, and the decimal
accumulation into EXP (30_encoding.md R52, R55, R56; 41_line_commands.md R100).
-/

namespace Sys2Proof.Machine

/-- `DELIM`, the byte of the character `,` (R7, R55; 93_implementation_defined.md G1). -/
def delim : Byte := 0x2C

/-- `DIGIT_LO`, the byte of the character `0` (R7, R55; G2). -/
def digitLo : Byte := 0x30

/-- `DIGIT_HI`, the byte of the character `9` (R7, R55; G2). -/
def digitHi : Byte := 0x39

/-- The three classes of a byte (R55). -/
inductive ByteClass where
  | delim
  | digit
  | other
deriving DecidableEq, Repr

/-- `DIGIT_LO <= d <= DIGIT_HI`, as unsigned numbers (R55). -/
def isDigit (d : Byte) : Bool :=
  digitLo.toNat ≤ d.toNat && d.toNat ≤ digitHi.toNat

/-- Every byte is in exactly one class (R55). -/
def byteClass (d : Byte) : ByteClass :=
  if d = delim then .delim else if isDigit d then .digit else .other

/-- The value of a DIGIT byte, `d - 0x30` (R56). -/
def digitValue (d : Byte) : Nat := d.toNat - digitLo.toNat

/-- One decimal place more, `10 * n + digit`, over the natural numbers: no wrap (R64, R93). -/
def appendDigit (n : Nat) (d : Byte) : Nat := 10 * n + digitValue d

/-- `min(10 * EXP + digit, 2^EXP_W - 1)`: unsigned and saturating (R93, R100). -/
def accumulateDigit (p : Params) (e : Nat) (d : Byte) : Nat :=
  min (appendDigit e d) p.expMax

end Sys2Proof.Machine
end

