-- ==== Sys2Proof/Machine/Flags.lean ====
section
/-!
DEFINITION. Every flag computation: the clipping flag of EXP (10_state.md R24), the test EOL makes of HASDIG and BADCH
(R23), the comparison of EXP with SNAP (41_line_commands.md R102), the ceiling test of LINEIDX (R94), and the derived
status bit ANYFAIL (R26).
-/

namespace Sys2Proof.Machine

/-- `EXP_OVF <- EXP_OVF OR (10 * EXP + digit > 2^EXP_W - 1)` (R24, R93). -/
def overflowAfter (p : Params) (ovf : Bool) (e : Nat) (d : Byte) : Bool :=
  ovf || decide (p.expMax < appendDigit e d)

/-- "The trailing field is not a valid integer" exactly when `HASDIG == 0 OR BADCH == 1` (R23). -/
def State.badTrailing (s : State) : Bool :=
  !s.hasDig || s.badCh

/-- `EXP != zext(SNAP)`, unsigned (R96, R102). -/
def State.checksumDiffers (s : State) : Bool :=
  s.exp != s.snap.toNat

/-- `LINEIDX == 2^CNT_W - 1` (R94, R129). -/
def State.lineIdxFull (s : State) : Bool :=
  s.lineIdx == s.params.cntMax

/-- `ANYFAIL == (FAILED != 0)`, derived and not stored (R26). -/
def State.anyFail (s : State) : Bool :=
  s.failed != 0

end Sys2Proof.Machine
end

