-- ==== Sys2Proof/Machine/LineCommands.lean ====
section
/-!
DEFINITION. The line commands CHAR and EOL (41_line_commands.md R93 to R98), with what they do out of place
(42_run_commands.md R110, R114, R115).
-/

namespace Sys2Proof.Machine

/-! ## CHAR -/

/-- What CHAR notes of its byte in SNAP, SEEN, EXP, EXP_OVF, HASDIG and BADCH. Every right-hand side reads the registers
as they are when the command is accepted (R93). -/
def State.scanByte (d : Byte) (s : State) : State :=
  match byteClass d with
  | .delim => s.noteDelimiter
  | .digit =>
    if s.seen then
      s.noteDigit (accumulateDigit s.params s.exp d) (overflowAfter s.params s.expOvf s.exp d)
    else s
  | .other => if s.seen then s.noteOther else s

/-- The acceptance of CHAR: every write but that of ACC happens now, and the engine takes the byte (R82, R93). -/
def State.acceptChar (d : Byte) (s : State) : State :=
  State.loadEngine d (s.scanByte d).markDirty

/-- CHAR in phase RUN, the whole command: the acceptance and the eight bit steps that fold the byte into ACC (R93, R82). -/
def State.charInRun (d : Byte) (s : State) : State :=
  (s.acceptChar d).finishByte

/-- CHAR (R93; out of place R114, R115). -/
def execChar (d : Byte) (s : State) : Host.Outcome State Fault Refusal :=
  match s.phase with
  | .run => .next (s.charInRun d)
  | .idle => .next (s.raise .protocol)
  | .done => .next (s.raise .protocol)
  | .faulted => .next s.ignoreCommand

/-! ## EOL -/

/-- What EOL finds, in the order R94 tests it. -/
inductive EolCase where
  /-- LINEIDX is at its ceiling (R129). -/
  | overflow
  /-- The header line (R95). -/
  | header
  /-- A data line without a delimiter (R97, cause 2). -/
  | noDelimiter
  /-- A data line whose trailing field is no number (R97, cause 3). -/
  | badInteger
  /-- A well-formed data line (R96). -/
  | wellFormed
deriving DecidableEq, Repr

/-- The order of the tests of EOL (R94; 60_exceptions.md R130). -/
def State.eolCase (s : State) : EolCase :=
  if s.lineIdxFull then .overflow
  else if s.lineIdx = 0 then .header
  else if s.seen = false then .noDelimiter
  else if s.badTrailing then .badInteger
  else .wellFormed

/-- The header line is reported and neither compared nor counted (R95). -/
def State.headerLine (s : State) : State :=
  State.closeLine (State.emit (.header 0 (!s.seen)) s)

/-- A checksum that differs: FAILED advances and MISMATCH is emitted (R96, R125). -/
def State.reportMismatch (s : State) : State :=
  State.emit (.mismatch s.lineIdx s.exp s.expOvf s.snap) s.countFailed

/-- The comparison of a well-formed data line: nothing more where the checksum agrees (R96, R102). -/
def State.judgeChecksum (s : State) : State :=
  if s.checksumDiffers then s.reportMismatch else s

/-- A well-formed data line: PROGRESS, then MISMATCH if the checksum differs, and CHECKED in either case (R96). -/
def State.dataLine (s : State) : State :=
  State.closeLine (State.countChecked (State.judgeChecksum (State.emit (.progress s.lineIdx) s)))

/-- A malformed data line: MALFORMED, and then what the policy says (R97, R134). -/
def State.malformedLine (c : Cause) (s : State) : State :=
  match s.params.policy with
  | .skip => (State.emit (.malformed s.lineIdx c) s).countSkipped.closeLine
  | .fatal => State.raise c (State.emit (.malformed s.lineIdx c) s)

/-- EOL in phase RUN (R94). -/
def State.eolInRun (s : State) : State :=
  match s.eolCase with
  | .overflow => s.raise .counterOverflow
  | .header => s.headerLine
  | .noDelimiter => s.malformedLine .malformedNoDelimiter
  | .badInteger => s.malformedLine .malformedBadInteger
  | .wellFormed => s.dataLine

/-- EOL (R94; out of place R114, R115). -/
def execEol (s : State) : Host.Outcome State Fault Refusal :=
  match s.phase with
  | .run => .next s.eolInRun
  | .idle => .next (s.raise .protocol)
  | .done => .next (s.raise .protocol)
  | .faulted => .next s.ignoreCommand

end Sys2Proof.Machine
end

