-- ==== Sys2Proof/Machine/RunCommands.lean ====
section
/-!
DEFINITION. The run commands START, EOS and ABORT and the accepted reserved word (42_run_commands.md R110 to R115;
60_exceptions.md R127).
-/

namespace Sys2Proof.Machine

/-- START: a run in progress is not thrown away, so in phase RUN it raises PROTOCOL; in every other phase, FAULTED
included, it begins a run (R111, R114). -/
def execStart (s : State) : Host.Outcome State Fault Refusal :=
  match s.phase with
  | .idle => .next s.beginRun
  | .run => .next (s.raise .protocol)
  | .done => .next s.beginRun
  | .faulted => .next s.beginRun

/-- EOS in phase RUN: the bytes of an unterminated line would be lost, so DIRTY raises PROTOCOL; otherwise SUMMARY is
emitted and the run is done (R112). -/
def State.eosInRun (s : State) : State :=
  if s.dirty then s.raise .protocol
  else State.endRun (State.emit (.summary s.checked s.failed s.skipped) s)

/-- EOS (R112; out of place R114, R115). -/
def execEos (s : State) : Host.Outcome State Fault Refusal :=
  match s.phase with
  | .run => .next s.eosInRun
  | .idle => .next (s.raise .protocol)
  | .done => .next (s.raise .protocol)
  | .faulted => .next s.ignoreCommand

/-- ABORT: RESOURCE_ACCESS in IDLE and in RUN; a finished run cannot fail in retrospect, so PROTOCOL in DONE (R113). -/
def execAbort (s : State) : Host.Outcome State Fault Refusal :=
  match s.phase with
  | .idle => .next (s.raise .resourceAccess)
  | .run => .next (s.raise .resourceAccess)
  | .done => .next (s.raise .protocol)
  | .faulted => .next s.ignoreCommand

/-- A reserved word is accepted: ILLEGAL_COMMAND in IDLE, RUN and DONE, whatever the phase allows; ignored in FAULTED
(R110, R115, R127; 30_encoding.md R54). -/
def State.acceptReserved (s : State) : State :=
  match s.phase with
  | .idle => s.raise .illegalCommand
  | .run => s.raise .illegalCommand
  | .done => s.raise .illegalCommand
  | .faulted => s.ignoreCommand

end Sys2Proof.Machine
end

