-- ==== Sys2Proof/Syntax.lean ====
section
/-!
DEFINITION. The commands of the block: one constructor per row of spec/opcode_table.json (30_encoding.md R51), the two
fields of a command word (R50), and what a word decodes to (R58).
-/

namespace Sys2Proof

/-- The five commands (R51). Only CHAR has an operand: its input byte, every value legal (R52). -/
inductive Instr where
  /-- START: the start of one run (42_run_commands.md R111). -/
  | start
  /-- CHAR d: one byte of the current line (41_line_commands.md R93). -/
  | char (d : Byte)
  /-- EOL: the end of the current line (41_line_commands.md R94). -/
  | eol
  /-- EOS: the source is exhausted (42_run_commands.md R112). -/
  | eos
  /-- ABORT: the source cannot be opened or read (42_run_commands.md R113). -/
  | abort
deriving DecidableEq, Repr

/-- The opcode map: every value of the field `op`, the three reserved ones included (R51). -/
inductive Opcode where
  | reserved0
  | start
  | char
  | eol
  | eos
  | abort
  | reserved6
  | reserved7
deriving DecidableEq, Repr

/-- A command word taken apart into its two fields (R50): the opcode and the operand byte `d`. -/
structure Command where
  op : Opcode
  d : Byte
deriving DecidableEq, Repr

/-- The command that an instruction spells: `d` is the input byte of CHAR and `0x00` otherwise (R50, R53). -/
def Instr.toCommand : Instr → Command
  | .start => ⟨.start, 0⟩
  | .char d => ⟨.char, d⟩
  | .eol => ⟨.eol, 0⟩
  | .eos => ⟨.eos, 0⟩
  | .abort => ⟨.abort, 0⟩

/-- Why a word is reserved (R54): one constructor for each of the two sorts of reserved encoding. -/
inductive Reserved where
  /-- `op` is `0b000`, `0b110` or `0b111` (768 words). -/
  | opcode (op : Opcode)
  /-- `op` is START, EOL, EOS or ABORT and `d` is not zero (R53; 1020 words). -/
  | operand (op : Opcode) (d : Byte)
deriving DecidableEq, Repr

/-- The outcome of decoding (R58): one of the five commands, or RESERVED, and nothing else. -/
inductive Decoded where
  | instr (i : Instr)
  | reserved (why : Reserved)
deriving DecidableEq, Repr

end Sys2Proof
end

