-- ==== Sys2Proof/Machine/Dispatch.lean ====
section
/-!
DEFINITION. One arm per command: the meaning of each instruction of spec/opcode_table.json (R51).
-/

namespace Sys2Proof.Machine

def exec (i : Instr) (s : State) : Host.Outcome State Fault Refusal :=
  match i with
  | .start => Sys2Proof.Machine.execStart s
  | .char d => Sys2Proof.Machine.execChar d s
  | .eol => Sys2Proof.Machine.execEol s
  | .eos => Sys2Proof.Machine.execEos s
  | .abort => Sys2Proof.Machine.execAbort s

end Sys2Proof.Machine
end

