-- ==== Sys2Proof/WellFormed.lean ====
section
/-!
DEFINITION. What a legal command is (30_encoding.md R51 to R54): the opcode is one of the five, and the operand byte is
zero unless the command is CHAR.
-/

namespace Sys2Proof

/-- The opcode stands for a command; opcodes 0, 6 and 7 are reserved (R51, R54). -/
def Command.opcodeAssigned (c : Command) : Bool :=
  match c.op with
  | .reserved0 => false
  | .start => true
  | .char => true
  | .eol => true
  | .eos => true
  | .abort => true
  | .reserved6 => false
  | .reserved7 => false

/-- The operand field is `0x00` for every command but CHAR, where every byte is legal (R52, R53). -/
def Command.operandLegal (c : Command) : Bool :=
  c.op == .char || c.d == 0

/-- A command word is legal when its opcode is assigned and its operand is allowed (R54). -/
def Command.wellFormed (c : Command) : Bool :=
  c.opcodeAssigned && c.operandLegal

/-- An instruction is well-formed when the command it spells is. -/
def Instr.wellFormed (i : Instr) : Bool :=
  i.toCommand.wellFormed

end Sys2Proof
end

