-- ==== Sys2Proof/Decode.lean ====
section
/-!
DEFINITION. The decoder, total over the 2048 words (30_encoding.md R50 to R54, R57, R58), and after it the encoder.
Decoding depends on the word alone, never on the state (R57, R58).
-/

namespace Sys2Proof

/-- The field `op`, bits 10:8 (R50). -/
def CmdWord.opBits (w : CmdWord) : BitVec 3 := w.extractLsb' 8 3

/-- The field `d`, bits 7:0 (R50). -/
def CmdWord.operand (w : CmdWord) : Byte := w.extractLsb' 0 8

/-- The opcode map, every value listed (R51). -/
def Opcode.ofBits (b : BitVec 3) : Opcode :=
  match b.toNat with
  | 0 => .reserved0
  | 1 => .start
  | 2 => .char
  | 3 => .eol
  | 4 => .eos
  | 5 => .abort
  | 6 => .reserved6
  | _ => .reserved7

/-- The two fields of a word (R50). -/
def CmdWord.fields (w : CmdWord) : Command :=
  { op := Opcode.ofBits w.opBits, d := w.operand }

/-- A command without an operand: its word is the command when `d` is `0x00` and reserved otherwise (R53). -/
def decodePlain (op : Opcode) (i : Instr) (d : Byte) : Decoded :=
  if d = 0 then .instr i else .reserved (.operand op d)

/-- What a command means, or why it is reserved (R51, R53, R54). -/
def Command.decode (c : Command) : Decoded :=
  match c.op with
  | .reserved0 => .reserved (.opcode .reserved0)
  | .start => decodePlain .start .start c.d
  | .char => .instr (.char c.d)
  | .eol => decodePlain .eol .eol c.d
  | .eos => decodePlain .eos .eos c.d
  | .abort => decodePlain .abort .abort c.d
  | .reserved6 => .reserved (.opcode .reserved6)
  | .reserved7 => .reserved (.opcode .reserved7)

/-- `decode : word11 -> START, CHAR d, EOL, EOS, ABORT or RESERVED` (R58). -/
def decode (w : CmdWord) : Decoded := w.fields.decode

/-- The opcode values of R51, written out. -/
def Opcode.bits : Opcode → BitVec 3
  | .reserved0 => 0b000
  | .start => 0b001
  | .char => 0b010
  | .eol => 0b011
  | .eos => 0b100
  | .abort => 0b101
  | .reserved6 => 0b110
  | .reserved7 => 0b111

/-- The word of a command: `op` in bits 10:8 and `d` in bits 7:0 (R50). -/
def Command.word (c : Command) : CmdWord := c.op.bits ++ c.d

/-- The word of an instruction (R51, R59). -/
def encode (i : Instr) : CmdWord := i.toCommand.word

/-- The command word a number of spec/opcode_table.json stands for: its bits 10:0. A number with a higher bit set is no
word of the 11-bit command port (R50). -/
def tableWord (w : Nat) : Option CmdWord :=
  if w < 2 ^ 11 then some (BitVec.ofNat 11 w) else none

/-- The instruction the decoder reads from an instruction whose bits are `w`, numbered as the opcode table numbers
them. The one word of a command is its bits 10:0, whatever number of whole bytes `nbits` holds it. -/
def decodeTableWord (_nbits w : Nat) : Option Instr :=
  match tableWord w with
  | some word =>
    match decode word with
    | .instr i => some i
    | .reserved _ => none
  | none => none

end Sys2Proof
end

