-- ==== Sys2Proof/Machine/Fetch.lean ====
section
/-!
DEFINITION. Where the next command comes from: the host's stream of words and resets (70_reset_and_hazards.md R150,
R152, R156). The block fetches nothing from a memory (20_memory.md R48).
-/

namespace Sys2Proof.Machine

/-- What the block finds at its ports: a step that is whole without an instruction, or an instruction to execute. -/
inductive Fetched where
  | settled (s : State)
  | instr (i : Instr) (s : State)
deriving DecidableEq, Repr

/-- The next thing that happens. While BUSY is 1 no command is accepted and the engine does its next bit step (R30,
R156). A quiet host leaves the state as it is (60_exceptions.md R142). Reset takes the reset state (R150). A command word
is accepted and decoded: a reserved one has no instruction and faults or is ignored (R54), any other is executed. -/
def State.fetch (s : State) : Fetched :=
  if s.busy then .settled s.engineTick
  else
    match s.input with
    | [] => .settled s
    | .reset :: rest => .settled (s.withInput rest).resetBlock
    | .command w :: rest =>
      match decode w with
      | .instr i => .instr i (s.withInput rest)
      | .reserved _ => .settled (s.withInput rest).acceptReserved

/-- The host presents these words, before whatever else it was going to do. -/
def State.present (ws : List CmdWord) (s : State) : State :=
  s.withInput (ws.map .command ++ s.input)

/-- The command whose bits are `w`, presented to a block that is ready to accept it (`cmd_ready`, R156). A number that is
no word of the port is not presented. -/
def State.presentTableWord (w : Nat) (s : State) : State :=
  match tableWord w with
  | some word => State.present [word] { s with busy := false }
  | none => s

end Sys2Proof.Machine
end

