-- ==== Sys2Proof/Machine/Step.lean ====
section
/-!
DEFINITION. One step: the next command the host presents is accepted and executed, whole (30_encoding.md R50;
70_reset_and_hazards.md R156, R159).
-/

namespace Sys2Proof.Machine

/-- One step of the block. -/
def step (s : State) : Host.Outcome State Fault Refusal :=
  match s.fetch with
  | .settled t => .next t
  | .instr i t => exec i t

/-- `s` with the instruction whose bits are `w` presented first on the command port, where `step` takes its next command.
The block has no program memory: its program is the stream of commands the host presents (10_state.md R18;
notes/assumptions/1.md). -/
def State.withFetchWord (s : State) (_nbits w : Nat) : State :=
  s.presentTableWord w

end Sys2Proof.Machine
end

