-- ==== Sys2Proof/Machine/StatusRegs.lean ====
section
/-!
DEFINITION. The code numbers of phases, causes and event kinds (10_state.md R19; 60_exceptions.md R121; 30_encoding.md
R61) and the eight read-only status registers (10_state.md R27 to R29). A status read is a function of the state: it has
no side effect and changes nothing (R29).
-/

namespace Sys2Proof.Machine

/-- The two bits of PHASE (R19). -/
def Phase.code : Phase → BitVec 2
  | .idle => 0
  | .run => 1
  | .done => 2
  | .faulted => 3

/-- The four bits of CAUSE and of the `cause` fields (R121, R63). -/
def Cause.code : Cause → BitVec 4
  | .none => 0
  | .resourceAccess => 1
  | .malformedNoDelimiter => 2
  | .malformedBadInteger => 3
  | .illegalCommand => 4
  | .protocol => 5
  | .counterOverflow => 6

/-- The four-bit code of an event's kind (R61). -/
def Event.kindCode : Event → BitVec 4
  | .runBegin => 1
  | .header _ _ => 2
  | .progress _ => 3
  | .mismatch _ _ _ _ => 4
  | .malformed _ _ => 5
  | .summary _ _ _ => 6
  | .fault _ _ => 7

/-- SR0 STATUS, from bit 11 down: ANYFAIL, DIRTY, EXP_OVF, BADCH, HASDIG, SEEN, CAUSE (5:2), PHASE (1:0) (R28). -/
def State.sr0 (s : State) : BitVec 12 :=
  BitVec.ofBool s.anyFail ++ BitVec.ofBool s.dirty ++ BitVec.ofBool s.expOvf ++ BitVec.ofBool s.badCh ++
    BitVec.ofBool s.hasDig ++ BitVec.ofBool s.seen ++ s.cause.code ++ s.phase.code

/-- The width of status register `n` (R27). -/
def statusWidth (p : Params) (n : BitVec 3) : Nat :=
  match n.toNat with
  | 0 => 12
  | 1 => 8
  | 2 => 8
  | 3 => p.expW
  | _ => p.cntW

/-- The content of status register `n` at its own width: SR0 STATUS, SR1 ACC, SR2 SNAP, SR3 EXP, SR4 LINEIDX, SR5
CHECKED, SR6 FAILED, SR7 SKIPPED (R27). -/
def State.statusNumber (n : BitVec 3) (s : State) : Nat :=
  match n.toNat with
  | 0 => s.sr0.toNat
  | 1 => s.acc.toNat
  | 2 => s.snap.toNat
  | 3 => s.exp
  | 4 => s.lineIdx
  | 5 => s.checked
  | 6 => s.failed
  | _ => s.skipped

/-- The width of `sr_data`, `max(CNT_W, EXP_W, 12)` (70_reset_and_hazards.md R155). -/
def statusPortWidth (p : Params) : Nat := max p.cntW (max p.expW 12)

/-- A status read: the selected register, zero-extended to the port (R27, R29, R155). -/
def State.readStatus (n : BitVec 3) (s : State) : BitVec (statusPortWidth s.params) :=
  (BitVec.ofNat (statusWidth s.params n) (s.statusNumber n)).setWidth (statusPortWidth s.params)

end Sys2Proof.Machine
end

