-- ==== Sys2Proof/Machine/Ports.lean ====
section
/-!
DEFINITION. The block at its ports (70_reset_and_hazards.md R155 to R157): a machine of one step per clock edge in which
a CHAR is seen bit step by bit step, an event waits until the host takes it, and reset may fall anywhere. It refines the
command-level `step`. How many bit steps an edge holds, and when an event comes onto its port, are not specified (R159),
so both are inputs of every edge.
-/

namespace Sys2Proof.Machine

/-- The input ports at one clock edge (R155), and the implementation's own pace. -/
structure Pins where
  /-- `rst`, active high. -/
  rst : Bool
  /-- `cmd`. -/
  cmd : CmdWord
  /-- `cmd_valid`. -/
  cmdValid : Bool
  /-- `evt_ready`. -/
  evtReady : Bool
  /-- `sr_sel`. -/
  srSel : BitVec 3
  /-- How many bit steps the engine may do at this edge, the edge that accepts a CHAR included: the spec leaves the pace
  open (R159, R82), so any number is allowed, none and all eight among them (notes/assumptions/9.md). -/
  bitSteps : Nat
  /-- Whether the block brings an event that waits onto the event port at this edge: no latency of `evt_valid` is given
  (R157, R159), so any delay is allowed (notes/assumptions/22.md). -/
  showEvent : Bool
deriving DecidableEq, Repr

/-- The block with what stands on its ports. -/
structure PortState where
  /-- The registers, and the list of all events emitted. -/
  core : State
  /-- The events of the last command that the host has not taken, oldest first (R157). -/
  waiting : List Event
  /-- The first of them stands on `evt`, and stays there until it is taken (R157; notes/assumptions/22.md). -/
  shown : Bool
  /-- The events the host has taken, oldest first. -/
  taken : List Event
  /-- The word that was valid and not accepted at the edge before, which the host must hold (R152); none after an edge
  under reset (notes/assumptions/24.md). -/
  offered : Option CmdWord
  /-- The state in which the last command was accepted, for a status read while BUSY is 1 (R30). -/
  atAccept : State
  /-- How many edges there have been: the argument of the free value. -/
  edges : Nat
deriving DecidableEq, Repr

/-- The ports right after power-up and reset (R150). -/
def PortState.reset : PortState :=
  { core := State.reset, waiting := [], shown := false, taken := [], offered := none, atAccept := State.reset, edges := 0 }

/-- `cmd_ready`: low while BUSY is 1 and while an event of the previous command is undelivered (R155, R156). -/
def PortState.cmdReady (p : PortState) : Bool := !p.core.busy && p.waiting.isEmpty

/-- `evt_valid`: an event is presented (R155, R157). When an event that waits comes onto the port is free
(notes/assumptions/22.md). -/
def PortState.evtValid (p : PortState) : Bool := p.shown && !p.waiting.isEmpty

/-- `evt`: the event presented, in emission order (R157); no record while `evt_valid` is low (notes/assumptions/20.md). -/
def PortState.evt (p : PortState) : Option Event := if p.evtValid then p.waiting.head? else none

/-- The host takes the event presented: `evt_valid` and `evt_ready` are both high (R157). -/
def PortState.eventTaken (pins : Pins) (p : PortState) : Bool := p.evtValid && pins.evtReady

/-- The state once the command in execution has completed. -/
def PortState.completed (p : PortState) : State := p.core.finishByte

/-- The state that a status read sees: between commands the registers as they are (10_state.md R29); while BUSY is 1 the
state from before the CHAR was accepted or the one after it has completed, never one between (R30). Which of the two is
the free value `Config.busyReadSeesAfter` (notes/assumptions/10.md). -/
def PortState.readView (n : BitVec 3) (p : PortState) : State :=
  if p.core.busy then
    if Config.busyReadSeesAfter p.edges n then p.completed else p.atAccept
  else p.core

/-- `sr_data`: the status register that `sr_sel` selects (R155). -/
def PortState.srData (n : BitVec 3) (p : PortState) : BitVec (statusPortWidth (p.readView n).params) :=
  (p.readView n).readStatus n

/-- The acceptance of a command word (R156). A CHAR in phase RUN is accepted and leaves the engine BUSY (R82); every
other word does all that it does. -/
def State.acceptWord (w : CmdWord) (s : State) : Host.Outcome State Fault Refusal :=
  match decode w with
  | .reserved _ => .next s.acceptReserved
  | .instr (.char d) => if s.phase = .run then .next (s.acceptChar d) else exec (.char d) s
  | .instr i => exec i s

/-- The block after the acceptance that led from `p.core` to `t`: the events the command emitted wait on the event port
(R157). The first may stand on the port right away or later (notes/assumptions/22.md), and the engine of a CHAR may do
bit steps right away or later (notes/assumptions/9.md). -/
def PortState.afterAccept (pins : Pins) (t : State) (p : PortState) : PortState :=
  { p with
    core := State.runEngine pins.bitSteps t, waiting := t.output.drop p.core.output.length, shown := pins.showEvent, offered := none,
    atAccept := p.core, edges := p.edges + 1 }

/-- An edge at which reset is asserted: the reset state, whatever was going on; events not yet taken are dropped (R150).
DESIGN CHOICE: a word that was waiting need not be held across it. R152 does not say whether it must, and the model
forgets the word, so the host may present another at the next edge (notes/assumptions/24.md). Safe: no host is left out. -/
def PortState.resetEdge (p : PortState) : PortState :=
  { p with core := p.core.resetBlock, waiting := [], shown := false, offered := none, edges := p.edges + 1 }

/-- An edge at which no command can be accepted: the engine may do bit steps, as many as its pace allows
(notes/assumptions/9.md), the host may take the event presented, and an event that waits may come onto the port; one
presented and not taken stays (R156, R157). -/
def PortState.busyEdge (pins : Pins) (p : PortState) : PortState :=
  { p with
    core := State.runEngine pins.bitSteps p.core,
    waiting := if p.eventTaken pins then p.waiting.tail else p.waiting,
    shown := if p.eventTaken pins then pins.showEvent else p.shown || pins.showEvent,
    taken := if p.eventTaken pins then p.taken ++ p.waiting.take 1 else p.taken,
    offered := if pins.cmdValid then some pins.cmd else none,
    edges := p.edges + 1 }

/-- An edge at which the block is ready and the host presents nothing: the block holds its state (R152). -/
def PortState.idleEdge (p : PortState) : PortState :=
  { p with offered := none, edges := p.edges + 1 }

/-- The host changes `cmd` while it waits: `cmd_valid` was high and `cmd_ready` low at the edge before, and the word is
another now (R152). -/
def PortState.unstable (pins : Pins) (p : PortState) : Bool :=
  pins.cmdValid && (match p.offered with | some w => w != pins.cmd | none => false)

/-- One clock edge (R150, R152, R155 to R157). -/
def PortState.edge (pins : Pins) (p : PortState) : Host.Outcome PortState Fault Refusal :=
  if pins.rst then .next p.resetEdge
  else if p.unstable pins then .refused .unstableCommand
  else if p.cmdReady then
    if pins.cmdValid then
      match p.core.acceptWord pins.cmd with
      | .next t => .next (p.afterAccept pins t)
      | .fault r => .fault r
      | .refused r => .refused r
    else .next p.idleEdge
  else .next (p.busyEdge pins)

end Sys2Proof.Machine
end

