-- ==== Sys2Proof/Machine/Reference.lean ====
section
/-!
DEFINITION. The reference semantics: what the commands must compute, as functions of a whole line (41_line_commands.md
R90 to R92) and of a whole source (42_run_commands.md R116). Where the two layers differ, this one is right.
-/

namespace Sys2Proof.Machine

/-- SPLIT: a line parted at its LAST delimiter into payload and trailing field; none where it has no delimiter (R90,
R104). -/
def splitLine : List Byte → Option (List Byte × List Byte)
  | [] => none
  | b :: rest =>
    match splitLine rest with
    | some (payload, trailing) => some (b :: payload, trailing)
    | none => if b = delim then some ([], rest) else none

/-- The number a string of digits spells, most significant digit first (30_encoding.md R64). -/
def decimalValue (digits : List Byte) : Nat := digits.foldl appendDigit 0

/-- PARSEDEC: a trailing field of at least one byte, every byte a digit, is the number it spells, without upper bound;
any other is no valid integer (R91). -/
def parseDec (t : List Byte) : Option Nat :=
  if t ≠ [] ∧ t.all isDigit = true then some (decimalValue t) else none

/-- The four outcomes of VALIDATE_LINE (R92). -/
inductive Verdict where
  | malformedNoDelimiter
  | malformedBadInteger
  | fail (expected : Nat) (actual : Byte)
  | pass (expected : Nat) (actual : Byte)
deriving DecidableEq, Repr

/-- VALIDATE_LINE: the verdict on one data line; the comparison is of two natural numbers (R92). -/
def validateLine (line : List Byte) : Verdict :=
  match splitLine line with
  | none => .malformedNoDelimiter
  | some (payload, trailing) =>
    match parseDec trailing with
    | none => .malformedBadInteger
    | some expected =>
      if (compute payload).toNat ≠ expected then .fail expected (compute payload)
      else .pass expected (compute payload)

/-- The counts of a run so far and the events it has emitted (R116). -/
structure Tally where
  checked : Nat
  failed : Nat
  skipped : Nat
  events : List Event
deriving DecidableEq, Repr

/-- How a run ends (R116). -/
inductive RunVerdict where
  /-- The source is exhausted: the RunSummary, the skipped lines, the events. -/
  | done (checked failed skipped : Nat) (events : List Event)
  /-- A malformed data line under policy FATAL: its cause, its index, the events. -/
  | faulted (cause : Cause) (line : Nat) (events : List Event)
deriving DecidableEq, Repr

/-- What the policy makes of a malformed data line `i`: go on with a new tally, or stop (R116, R97). -/
def Tally.malformed (t : Tally) (p : Params) (c : Cause) (i : Nat) : Tally ⊕ RunVerdict :=
  match p.policy with
  | .skip => .inl { t with skipped := t.skipped + 1, events := t.events ++ [.malformed i c] }
  | .fatal => .inr (.faulted c i (t.events ++ [.malformed i c, .fault c i]))

/-- The body of the loop of VALIDATE: line `i` of the source, the header being line 0 (R116). -/
def Tally.line (t : Tally) (p : Params) (i : Nat) (line : List Byte) : Tally ⊕ RunVerdict :=
  if i = 0 then .inl { t with events := t.events ++ [.header 0 (splitLine line).isNone] }
  else
    match validateLine line with
    | .malformedNoDelimiter => t.malformed p .malformedNoDelimiter i
    | .malformedBadInteger => t.malformed p .malformedBadInteger i
    | .pass _ _ => .inl { t with checked := t.checked + 1, events := t.events ++ [.progress i] }
    | .fail e a =>
      .inl { t with
        checked := t.checked + 1, failed := t.failed + 1,
        events := t.events ++ [.progress i, .mismatch i (min e p.expMax) (decide (p.expMax < e)) a] }

/-- The loop of VALIDATE from line `i` on (R116). -/
def validateFrom (p : Params) : Nat → Tally → List (List Byte) → RunVerdict
  | _, t, [] =>
    .done t.checked t.failed t.skipped (t.events ++ [.summary t.checked t.failed t.skipped])
  | i, t, l :: ls =>
    match t.line p i l with
    | .inl t' => validateFrom p (i + 1) t' ls
    | .inr v => v

/-- VALIDATE: the events and the result of a whole source (R116). -/
def validate (p : Params) (lines : List (List Byte)) : RunVerdict :=
  validateFrom p 0 { checked := 0, failed := 0, skipped := 0, events := [.runBegin] } lines

end Sys2Proof.Machine
end

