-- ==== Sys2Proof/Machine/Runs.lean ====
section
/-!
DEFINITION. Command streams in the notation of 30_encoding.md R59, the block's step function in the spec's own form
(R50), and the end of a run with its result (70_reset_and_hazards.md R151, R160; 42_run_commands.md R117).
-/

namespace Sys2Proof.Machine

/-- `TEXT "s"`: one CHAR for each byte of `s`, in order (R59). -/
def textWords (bytes : List Byte) : List CmdWord := bytes.map fun b => encode (.char b)

/-- `LINE "s"`: the text and then EOL (R59). -/
def lineWords (bytes : List Byte) : List CmdWord := textWords bytes ++ [encode .eol]

/-- The lines of a source, each closed with EOL (R59; 70_reset_and_hazards.md R154, HD1 and HD5). -/
def sourceWords (lines : List (List Byte)) : List CmdWord := lines.flatMap lineWords

/-- `RUN "l0" ... "ln"`: START, the lines, EOS (R59). -/
def runWords (lines : List (List Byte)) : List CmdWord :=
  encode .start :: (sourceWords lines ++ [encode .eos])

/-- The bytes of a written string, one for each character: its code point (R8; 93_implementation_defined.md G6). -/
def asciiBytes (cs : List Char) : List Byte := cs.map fun c => BitVec.ofNat 8 c.toNat

/-! ## One command as the spec has it -/

/-- The block's step function in the spec's own form, `(state, command word) -> (state, list of events)`, over the
registers alone and for given parameters (30_encoding.md R50; 70_reset_and_hazards.md R155; 10_state.md R33): the events
emitted before and the commands still to come are not among its arguments. -/
def Registers.command (p : Params) (w : CmdWord) (r : Registers) : Option (Registers × List Event) :=
  match step { registers := r, params := p, output := [], input := [.command w] } with
  | .next t => some (t.registers, t.output)
  | .fault _ => none
  | .refused _ => none

/-! ## The end of a run -/

/-- The result of one run (R160). -/
inductive RunResult where
  /-- The stream stops before the run ends: nothing may be concluded. -/
  | open
  /-- A reset abandoned the run, which leaves no result (R151). -/
  | abandoned
  /-- Ended in DONE: the RunSummary with SKIPPED, and the events from RUN_BEGIN to SUMMARY inclusive. -/
  | summary (checked failed skipped : Nat) (events : List Event)
  /-- Ended in FAULTED: CAUSE, LINEIDX, and the events from RUN_BEGIN (if any: an ABORT in IDLE has none, R9) to FAULT
  inclusive. There is no RunSummary. -/
  | failure (cause : Cause) (line : Nat) (events : List Event)
deriving DecidableEq, Repr

/-- The result of the run that has just ended in this state, where `n` events had been emitted before it. -/
def State.reportRun (n : Nat) (s : State) : RunResult :=
  match s.phase with
  | .idle => .open
  | .run => .open
  | .done => .summary s.checked s.failed s.skipped (s.output.drop n)
  | .faulted => .failure s.cause s.lineIdx (s.output.drop n)

/-- Whether the acceptance of `w`, which led from `s` to `t`, ends a run. A run goes from an accepted START to the next
transition into DONE or FAULTED, and an ABORT in IDLE is a run of that one command (00_scope.md R9; R160). Any other fault
with no run open belongs to no run. -/
def State.endsRun (w : CmdWord) (s t : State) : Bool :=
  match s.phase with
  | .idle => decode w == .instr .abort
  | .run => t.phase == .done || t.phase == .faulted
  | .done => false
  | .faulted => false

/-- How many events had been emitted before the run to which a command accepted in `s` belongs: those before its START,
`n`, where a run is open, and all so far where the command may be a START or an ABORT in IDLE. -/
def State.eventsBefore (n : Nat) (s : State) : Nat :=
  match s.phase with
  | .idle => s.output.length
  | .run => n
  | .done => s.output.length
  | .faulted => s.output.length

/-- What is left of a run when the stream stops or reset falls: `r` where a run is open, and nothing elsewhere. -/
def State.ifRunOpen (r : RunResult) (s : State) : List RunResult :=
  match s.phase with
  | .idle => []
  | .run => [r]
  | .done => []
  | .faulted => []

/-- The results of the runs among the host's actions, in order, where `n` events had been emitted before the run that is
open, if one is. -/
def State.resultsFrom (n : Nat) : List PortInput → State → List RunResult
  | [], s => s.ifRunOpen .open
  | .reset :: rest, s => s.ifRunOpen .abandoned ++ State.resultsFrom n rest s.resetBlock
  | .command w :: rest, s =>
    match step (s.withInput [.command w]) with
    | .next t =>
      (if s.endsRun w t then [t.reportRun (s.eventsBefore n)] else []) ++ State.resultsFrom (s.eventsBefore n) rest t
    | .fault _ => []
    | .refused _ => []

/-- The results of all runs that the host's actions hold, from a state with no run open: one for each START accepted out
of a run and for each ABORT in IDLE (R9, R151, R160; notes/assumptions/23.md). What is presented after the end of a run
changes nothing of its result. -/
def State.runResults (actions : List PortInput) (s : State) : List RunResult :=
  State.resultsFrom s.output.length actions s

/-- The result of the first of these runs; open where there is none. -/
def State.runResult (actions : List PortInput) (s : State) : RunResult :=
  (s.runResults actions).headD .open

/-- Success or failure for the host's exit status: DONE is success whatever FAILED is, FAULTED is failure; no answer
before the end of a run (R117). -/
def State.runSucceeded (s : State) : Option Bool :=
  match s.phase with
  | .idle => none
  | .run => none
  | .done => some true
  | .faulted => some false

end Sys2Proof.Machine
end

