-- ==== Sys2Proof/Safety.lean ====
section
/-!
DEFINITION. The terms in which claims are stated: the invariants of 10_state.md R25, the legal values of event records
(30_encoding.md R62), the relation of the registers to the line received so far (41_line_commands.md R99), and runs of
the machine.
-/

namespace Sys2Proof.Machine

/-! ## Invariants of the registers (R25) -/

/-- The hidden registers between commands: `SHR == 0`, `BITCNT == 0`, `BUSY == 0` (R30). -/
abbrev State.EngineAtRest (s : State) : Prop := s.shr = 0 ∧ s.bitCnt = 0 ∧ s.busy = false

/-- Every register that SEEN guards is 0 while SEEN is 0 (R25). -/
abbrev State.UnseenClear (s : State) : Prop :=
  s.seen = false → s.snap = 0 ∧ s.exp = 0 ∧ s.hasDig = false ∧ s.badCh = false ∧ s.expOvf = false

/-- `DIRTY == 0` implies `ACC == 0 AND SEEN == 0` (R25). -/
abbrev State.CleanClear (s : State) : Prop := s.dirty = false → s.acc = 0 ∧ s.seen = false

/-- `EXP_OVF == 1` implies `EXP == 2^EXP_W - 1 AND HASDIG == 1` (R25). -/
abbrev State.ClippedAtCeiling (s : State) : Prop :=
  s.expOvf = true → s.exp = s.params.expMax ∧ s.hasDig = true

/-- Every per-line register is 0 (R34). -/
abbrev State.LineClear (s : State) : Prop :=
  s.acc = 0 ∧ s.snap = 0 ∧ s.exp = 0 ∧ s.seen = false ∧ s.hasDig = false ∧ s.badCh = false ∧ s.expOvf = false ∧
    s.dirty = false

/-- Every per-run counter is 0. -/
abbrev State.CountersClear (s : State) : Prop :=
  s.lineIdx = 0 ∧ s.checked = 0 ∧ s.failed = 0 ∧ s.skipped = 0

/-- CAUSE and PHASE agree: a cause exactly in phase FAULTED (R25). -/
abbrev State.CauseMatchesPhase (s : State) : Prop := s.cause ≠ .none ↔ s.phase = .faulted

/-- The eight invariants of R25, with the parameters in their ranges (R7) and the engine at rest (R30). -/
abbrev State.Inv25 (s : State) : Prop :=
  s.params.valid ∧
  s.EngineAtRest ∧
  s.failed ≤ s.checked ∧
  (s.phase = .run ∨ s.phase = .done → s.checked + s.skipped = max s.lineIdx 1 - 1) ∧
  s.UnseenClear ∧
  s.CleanClear ∧
  s.ClippedAtCeiling ∧
  s.CauseMatchesPhase ∧
  (s.phase = .idle → s.CountersClear ∧ s.LineClear) ∧
  (s.phase = .idle ∨ s.phase = .done → s.LineClear)

/-- The numbers fit their registers: EXP in `EXP_W` bits, the counters in `CNT_W` bits (R13 to R17), with
`CHECKED + SKIPPED` below LINEIDX once a line is closed (41_line_commands.md R101), and SKIPPED 0 under policy FATAL
(R17). -/
abbrev State.NumbersFit (s : State) : Prop :=
  s.exp ≤ s.params.expMax ∧ s.lineIdx ≤ s.params.cntMax ∧ s.checked + s.skipped ≤ s.lineIdx - 1 ∧
    (s.params.policy = .fatal → s.skipped = 0)

/-- The whole invariant of the registers. -/
abbrev State.Inv (s : State) : Prop := s.Inv25 ∧ s.NumbersFit

/-- What the registers say of the fault that CAUSE names (60_exceptions.md R121, R123, R124, R129). -/
abbrev State.CauseExplained (s : State) : Prop :=
  (s.cause = .malformedNoDelimiter →
    s.params.policy = .fatal ∧ 1 ≤ s.lineIdx ∧ s.seen = false) ∧
  (s.cause = .malformedBadInteger →
    s.params.policy = .fatal ∧ 1 ≤ s.lineIdx ∧ s.seen = true ∧ (s.hasDig = false ∨ s.badCh = true)) ∧
  (s.cause = .counterOverflow → s.lineIdx = s.params.cntMax)

/-! ## The phase machine (R110) -/

/-- The fault that EOL raises in phase RUN, if any, in the order of 60_exceptions.md R130. -/
def eolRaises (s : State) : Option Cause :=
  if s.lineIdx = s.params.cntMax then some .counterOverflow
  else if s.lineIdx = 0 then none
  else if s.params.policy = .skip then none
  else if s.seen = false then some .malformedNoDelimiter
  else if s.hasDig = false ∨ s.badCh = true then some .malformedBadInteger
  else none

/-- A phase and a cause after a command that raises `r`, or that leaves `ph` when it raises nothing. -/
def phaseAfter (ph : Phase) (r : Option Cause) : Phase × Cause :=
  match r with
  | none => (ph, .none)
  | some c => (.faulted, c)

/-- The table of R110, cell by cell: the phase and the cause after the decoded command. In phase FAULTED everything but
START leaves both as they are. -/
def phaseTable (s : State) (c : Decoded) : Phase × Cause :=
  match s.phase, c with
  | .idle, .instr .start => (.run, .none)
  | .idle, .instr (.char _) => (.faulted, .protocol)
  | .idle, .instr .eol => (.faulted, .protocol)
  | .idle, .instr .eos => (.faulted, .protocol)
  | .idle, .instr .abort => (.faulted, .resourceAccess)
  | .idle, .reserved _ => (.faulted, .illegalCommand)
  | .run, .instr .start => (.faulted, .protocol)
  | .run, .instr (.char _) => (.run, .none)
  | .run, .instr .eol => phaseAfter .run (eolRaises s)
  | .run, .instr .eos => phaseAfter .done (if s.dirty = true then some .protocol else none)
  | .run, .instr .abort => (.faulted, .resourceAccess)
  | .run, .reserved _ => (.faulted, .illegalCommand)
  | .done, .instr .start => (.run, .none)
  | .done, .instr (.char _) => (.faulted, .protocol)
  | .done, .instr .eol => (.faulted, .protocol)
  | .done, .instr .eos => (.faulted, .protocol)
  | .done, .instr .abort => (.faulted, .protocol)
  | .done, .reserved _ => (.faulted, .illegalCommand)
  | .faulted, .instr .start => (.run, .none)
  | .faulted, .instr (.char _) => (.faulted, s.cause)
  | .faulted, .instr .eol => (.faulted, s.cause)
  | .faulted, .instr .eos => (.faulted, s.cause)
  | .faulted, .instr .abort => (.faulted, s.cause)
  | .faulted, .reserved _ => (.faulted, s.cause)

/-- The last event says how the run ended: SUMMARY with the counters in DONE, FAULT with cause and line in FAULTED
(10_state.md R29; 70_reset_and_hazards.md R160). -/
abbrev State.LastEventTellsEnd (s : State) : Prop :=
  (s.phase = .done → s.output.getLast? = some (.summary s.checked s.failed s.skipped)) ∧
  (s.phase = .faulted → s.output.getLast? = some (.fault s.cause s.lineIdx))

/-! ## Event records -/

/-- An event's fields have the values R62 allows for its kind, at the widths of its parameters. -/
abbrev Event.Legal (p : Params) (e : Event) : Prop :=
  match e with
  | .runBegin => True
  | .header i _ => i = 0
  | .progress i => 1 ≤ i ∧ i ≤ p.cntMax
  | .mismatch i x ovf a =>
    1 ≤ i ∧ i ≤ p.cntMax ∧ x ≤ p.expMax ∧ x ≠ a.toNat ∧ (ovf = true → x = p.expMax)
  | .malformed i c => 1 ≤ i ∧ i ≤ p.cntMax ∧ (c = .malformedNoDelimiter ∨ c = .malformedBadInteger)
  | .summary c f k => c ≤ p.cntMax ∧ f ≤ c ∧ k ≤ p.cntMax
  | .fault c i => c ≠ .none ∧ i ≤ p.cntMax

/-- Every event in the output is legal. -/
abbrev State.OutputLegal (s : State) : Prop := ∀ e ∈ s.output, e.Legal s.params

/-! ## The line so far (R99) -/

/-- The bytes of the trailing field that are digits, in order. -/
abbrev digitsOf (t : List Byte) : List Byte := t.filter isDigit

/-- The streaming relation of R99 between the registers and the bytes `line` of the open line. -/
abbrev State.Tracks (s : State) (line : List Byte) : Prop :=
  s.acc = compute line ∧
  s.dirty = decide (0 < line.length) ∧
  match splitLine line with
  | none =>
    s.seen = false ∧ s.snap = 0 ∧ s.exp = 0 ∧ s.hasDig = false ∧ s.badCh = false ∧ s.expOvf = false
  | some (payload, trailing) =>
    s.seen = true ∧ s.snap = compute payload ∧
    s.hasDig = trailing.any isDigit ∧
    s.badCh = trailing.any (fun b => !isDigit b) ∧
    s.exp = min (decimalValue (digitsOf trailing)) s.params.expMax ∧
    s.expOvf = decide (s.params.expMax < decimalValue (digitsOf trailing))

/-! ## Runs of the machine -/

/-- The state after a step or a run, where there is one. -/
def nextState {σ φ ρ : Type} (o : Host.Outcome σ φ ρ) : Option σ :=
  match o with
  | .next t => some t
  | .fault _ => none
  | .refused _ => none

/-- The machine presented with these words and run until it has accepted them all. -/
def State.afterWords (ws : List CmdWord) (s : State) : Host.Outcome State Fault Refusal :=
  Sys2Proof.core.run ws.length (s.present ws)

/-! ## The ports -/

/-- Inside a CHAR: the engine has done `k < 8` bit steps since the acceptance of a CHAR in phase RUN (10_state.md R30;
40_crc_engine.md R82). -/
def PortState.InsideChar (p : PortState) : Prop :=
  ∃ (d : Byte) (k : Nat),
    k < 8 ∧ p.atAccept.phase = .run ∧ p.atAccept.EngineAtRest ∧
      p.core = State.engineTick^[k] (p.atAccept.acceptChar d)

/-- What holds at the ports at every edge: at most two events wait; while BUSY is 1 none waits and the engine is inside
a CHAR; otherwise the engine is at rest (R30, R156, R157). -/
abbrev PortState.Inv (p : PortState) : Prop :=
  p.waiting.length ≤ 2 ∧
  (p.core.busy = true → p.waiting = [] ∧ p.InsideChar) ∧
  (p.core.busy = false → p.core.EngineAtRest)

/-- No event has been dropped: what the host has taken and what still waits is all that was emitted, in order (R157). -/
abbrev PortState.AllDelivered (p : PortState) : Prop := p.taken ++ p.waiting = p.core.output

end Sys2Proof.Machine
end

