-- ==== Sys2Proof/Certificates/Slice0/Obligations.lean ====
section
/-!
DEFINITION. The statements for the provers, one def Obligations.<Name> : Prop each, listed in OBLIGATIONS.json.
-/

open Sys2Proof Sys2Proof.Machine

/-! ## Encoding -/

/-- Decode and encode agree in both directions: no bit of a command word is dropped, and no two words mean the same
command (30_encoding.md R50 to R54, R58). -/
def Obligations.DecodeAndEncodeAgree : Prop :=
  (∀ i : Instr, i.wellFormed = true → decode (encode i) = .instr i) ∧
  (∀ (w : CmdWord) (i : Instr), decode w = .instr i → i.wellFormed = true ∧ encode i = w)

/-- R51: the opcode map as match and mask; a word matched by no row is reserved. -/
def Obligations.DecodeFollowsOpcodeTable : Prop :=
  ∀ w : CmdWord,
    (decode w = .instr .start ↔ w &&& 0x7FF = 0x100) ∧
    (∀ d : Byte, decode w = .instr (.char d) ↔ w &&& 0x700 = 0x200 ∧ d = w.setWidth 8) ∧
    (decode w = .instr .eol ↔ w &&& 0x7FF = 0x300) ∧
    (decode w = .instr .eos ↔ w &&& 0x7FF = 0x400) ∧
    (decode w = .instr .abort ↔ w &&& 0x7FF = 0x500) ∧
    ((∃ r, decode w = .reserved r) ↔
      w &&& 0x7FF ≠ 0x100 ∧ w &&& 0x700 ≠ 0x200 ∧ w &&& 0x7FF ≠ 0x300 ∧ w &&& 0x7FF ≠ 0x400 ∧ w &&& 0x7FF ≠ 0x500)

/-- Which words are reserved, and why (R53, R54): an unassigned opcode with any operand, or an operand that is not zero
with an opcode that has none. -/
def Obligations.ReservedWordsAreNamed : Prop :=
  ∀ (op : Opcode) (d : Byte),
    (op = .reserved0 ∨ op = .reserved6 ∨ op = .reserved7 →
      decode (Command.word ⟨op, d⟩) = .reserved (.opcode op)) ∧
    (op = .start ∨ op = .eol ∨ op = .eos ∨ op = .abort → d ≠ 0 →
      decode (Command.word ⟨op, d⟩) = .reserved (.operand op d))

/-- A few words of 95_test_vectors.md section 2.6, written out. -/
def Obligations.WrittenWordsDecode : Prop :=
  decode 0b00100000000 = .instr .start ∧ decode 0b01000101100 = .instr (.char 0x2C) ∧
  decode 0b01011111111 = .instr (.char 0xFF) ∧ decode 0b01100000000 = .instr .eol ∧
  decode 0b10000000000 = .instr .eos ∧ decode 0b10100000000 = .instr .abort ∧
  decode 0b00000000000 = .reserved (.opcode .reserved0) ∧ decode 0b01100000001 = .reserved (.operand .eol 1)

/-! ## Steps -/

/-- A step runs the decoded instruction: the word at the head of the host's stream is taken off it, and nothing else
happens around `exec`. That the host's stream is a field of State is the model's choice (log entry 1). -/
def Obligations.StepExecutesPresentedCommand : Prop :=
  ∀ (s : State) (w : CmdWord) (rest : List PortInput) (i : Instr),
    s.busy = false → s.input = .command w :: rest → decode w = .instr i →
      step s = exec i { s with input := rest }

/-- A reserved word faults with ILLEGAL_COMMAND, code 4, in IDLE, RUN and DONE; in FAULTED it is ignored (R127, R54,
R115). That the host's stream is a field of State is the model's choice (log entry 1). -/
def Obligations.StepFaultsOnReservedWord : Prop :=
  Cause.illegalCommand.code = 4 ∧
  ∀ (s : State) (w : CmdWord) (rest : List PortInput) (r : Reserved),
    s.busy = false → s.input = .command w :: rest → decode w = .reserved r →
      (s.phase ≠ .faulted →
        step s = .next
          { s with
            input := rest, phase := .faulted, cause := .illegalCommand,
            output := s.output ++ [.fault .illegalCommand s.lineIdx] }) ∧
      (s.phase = .faulted → step s = .next { s with input := rest })

/-- A reset step leaves every register zero, hidden ones included, emits nothing and keeps the list of events (R32,
R150). That the host's stream and the parameters are fields of State is the model's choice (log entries 1, 2). -/
def Obligations.StepTakesReset : Prop :=
  ∀ (s : State) (rest : List PortInput),
    s.busy = false → s.input = .reset :: rest →
      step s = .next
        { params := s.params, acc := 0x00, snap := 0x00, exp := 0, lineIdx := 0, checked := 0, failed := 0,
          skipped := 0, phase := .idle, cause := .none, seen := false, hasDig := false, badCh := false,
          expOvf := false, dirty := false, shr := 0x00, bitCnt := 0, busy := false, output := s.output,
          input := rest }

/-- R32: the state after reset, register by register. -/
def Obligations.ResetLeavesZero : Prop :=
  State.reset.phase = .idle ∧ State.reset.cause = .none ∧ State.reset.acc = 0x00 ∧ State.reset.snap = 0x00 ∧
  State.reset.exp = 0 ∧ State.reset.lineIdx = 0 ∧ State.reset.checked = 0 ∧ State.reset.failed = 0 ∧
  State.reset.skipped = 0 ∧ State.reset.seen = false ∧ State.reset.hasDig = false ∧ State.reset.badCh = false ∧
  State.reset.expOvf = false ∧ State.reset.dirty = false ∧ State.reset.shr = 0 ∧ State.reset.bitCnt = 0 ∧
  State.reset.busy = false

/-- A quiet host leaves the block as it is (60_exceptions.md R142). That a step with nothing presented is a step at all is
the model's choice (log entry 6). -/
def Obligations.QuietHostChangesNothing : Prop :=
  ∀ s : State, s.busy = false → s.input = [] → step s = .next s

/-- Every cell of the phase table is filled: whatever word is presented in whatever phase, the step answers a next state,
and its phase and cause are the table's (R110). In phases other than FAULTED the cause before the command is NONE
(R20), which is the premise. -/
def Obligations.PhaseTableIsFollowed : Prop :=
  ∀ (s : State) (w : CmdWord) (rest : List PortInput),
    s.busy = false → s.CauseMatchesPhase → s.input = .command w :: rest →
      ∃ t, step s = .next t ∧ (t.phase, t.cause) = phaseTable s (decode w)

/-- No step of the block ends in a fault or a refusal of the model, in any state. The spec has the step function total over
phase and word (R110; 93_implementation_defined.md section 2); that the spec's faults are next states and the type Fault
is empty is log entry 15 (DEDUCED), and that a quiet host and a state with BUSY 1 have a step at all are the model's
choices, log entries 6 and 7. -/
def Obligations.EveryStepGoesOn : Prop :=
  ∀ s : State, ∃ t, step s = .next t

/-- The only ways out of phase FAULTED are START, which begins a new run from nothing, and reset; a step that does not
leave it raises nothing and keeps CAUSE (R133). -/
def Obligations.FaultedIsLeftOnlyByStartOrReset : Prop :=
  ∀ s t : State, s.phase = .faulted → step s = .next t →
    (t.phase = .faulted ∧ t.cause = s.cause ∧ t.output = s.output) ∨
    (∃ rest,
      (s.input = .command (encode .start) :: rest ∧ t.phase = .run ∨ s.input = .reset :: rest ∧ t.phase = .idle) ∧
      t.cause = .none ∧ t.CountersClear ∧ t.LineClear)

/-- R115: in phase FAULTED any number of words, reserved ones too, changes no register and emits no event, as long as
none is START. -/
def Obligations.FaultIsSticky : Prop :=
  ∀ (s : State) (ws : List CmdWord),
    s.busy = false → s.phase = .faulted → encode .start ∉ ws → s.afterWords ws = .next s

/-- The parameters are fixed for the life of the block (R33); that State holds them is the model's choice (log entry 2). -/
def Obligations.ParametersAreNeverWritten : Prop :=
  ∀ s t : State, step s = .next t → t.params = s.params

/-- The output is append-only, over every step whatever, and a step emits at most two events (R157); that State holds the
events is the model's choice (log entry 4). -/
def Obligations.OutputOnlyGrows : Prop :=
  ∀ s t : State, step s = .next t → ∃ evs : List Event, evs.length ≤ 2 ∧ t.output = s.output ++ evs

/-! ## The commands: results, frames, and where they trap -/

/-- START in IDLE, DONE and FAULTED rewrites every register it names and emits RUN_BEGIN; the parameters and the host's
stream are unchanged. In RUN it raises PROTOCOL (R111, R114). That the hidden SHR, BITCNT and BUSY stay as they are, 0
wherever a command is accepted (R30), is the model's reading, log entry 8 (DEDUCED). -/
def Obligations.StartBeginsRun : Prop :=
  encode .start = 0x100 ∧ Phase.run.code = 1 ∧ Cause.none.code = 0 ∧
  ∀ s : State,
    (s.phase ≠ .run →
      exec .start s = .next
        { s with
          phase := .run, cause := .none, lineIdx := 0, checked := 0, failed := 0, skipped := 0,
          acc := 0x00, snap := 0x00, exp := 0, seen := false, hasDig := false, badCh := false, expOvf := false,
          dirty := false, output := s.output ++ [.runBegin] }) ∧
    (s.phase = .run →
      exec .start s = .next
        { s with
          phase := .faulted, cause := .protocol, output := s.output ++ [.fault .protocol s.lineIdx] })

/-- R93: CHAR in phase RUN folds the byte into ACC and scans it for the delimiter and the decimal checksum. Every
right-hand side reads the registers as they are when the command is accepted; the engine is at rest afterwards; every
other register, the output and the stream are unchanged. -/
def Obligations.CharFoldsAndScansByte : Prop :=
  ∀ (s : State) (d : Byte),
    encode (.char d) = 0x200 + d.setWidth 11 ∧
    (s.phase = .run →
      exec (.char d) s = .next
        { s with
          acc := byteStep s.acc d, dirty := true, shr := 0x00, bitCnt := 0, busy := false,
          snap := if d = 0x2C then s.acc else s.snap,
          seen := if d = 0x2C then true else s.seen,
          exp :=
            if d = 0x2C then 0
            else if s.seen = true ∧ 0x30 ≤ d.toNat ∧ d.toNat ≤ 0x39 then
              min (10 * s.exp + (d.toNat - 0x30)) (2 ^ s.params.expW - 1)
            else s.exp,
          expOvf :=
            if d = 0x2C then false
            else if s.seen = true ∧ 0x30 ≤ d.toNat ∧ d.toNat ≤ 0x39 then
              s.expOvf || decide (2 ^ s.params.expW - 1 < 10 * s.exp + (d.toNat - 0x30))
            else s.expOvf,
          hasDig :=
            if d = 0x2C then false
            else if s.seen = true ∧ 0x30 ≤ d.toNat ∧ d.toNat ≤ 0x39 then true
            else s.hasDig,
          badCh :=
            if d = 0x2C then false
            else if s.seen = true ∧ ¬(0x30 ≤ d.toNat ∧ d.toNat ≤ 0x39) then true
            else s.badCh })

/-- R95: EOL on the header line reports it, compares nothing, counts nothing, and closes the line. -/
def Obligations.EolReportsHeader : Prop :=
  ∀ s : State, s.phase = .run → s.lineIdx = 0 → s.lineIdx ≠ 2 ^ s.params.cntW - 1 →
    exec .eol s = .next
      { s with
        lineIdx := 1, acc := 0x00, snap := 0x00, exp := 0, seen := false, hasDig := false, badCh := false,
        expOvf := false, dirty := false, output := s.output ++ [.header 0 (!s.seen)] }

/-- R96: EOL on a well-formed data line: PROGRESS, then MISMATCH and FAILED where EXP is not SNAP, CHECKED in either
case, and the line is closed; the phase stays RUN. -/
def Obligations.EolChecksDataLine : Prop :=
  ∀ s : State, s.phase = .run → 1 ≤ s.lineIdx → s.lineIdx ≠ 2 ^ s.params.cntW - 1 →
    s.seen = true → s.hasDig = true → s.badCh = false →
      exec .eol s = .next
        { s with
          lineIdx := s.lineIdx + 1, checked := s.checked + 1,
          failed := if s.exp ≠ s.snap.toNat then s.failed + 1 else s.failed,
          acc := 0x00, snap := 0x00, exp := 0, seen := false, hasDig := false, badCh := false,
          expOvf := false, dirty := false,
          output := s.output ++ .progress s.lineIdx ::
            (if s.exp ≠ s.snap.toNat then [.mismatch s.lineIdx s.exp s.expOvf s.snap] else []) }

/-- R97: EOL on a malformed data line, both causes and both policies: under SKIP it is reported, counted and closed;
under FATAL it is reported and the fault is entered with the line not closed. -/
def Obligations.EolTreatsMalformedLine : Prop :=
  Cause.malformedNoDelimiter.code = 2 ∧ Cause.malformedBadInteger.code = 3 ∧
  ∀ (s : State) (c : Cause), s.phase = .run → 1 ≤ s.lineIdx → s.lineIdx ≠ 2 ^ s.params.cntW - 1 →
    (s.seen = false ∧ c = .malformedNoDelimiter ∨
      s.seen = true ∧ (s.hasDig = false ∨ s.badCh = true) ∧ c = .malformedBadInteger) →
      (s.params.policy = .skip →
        exec .eol s = .next
          { s with
            lineIdx := s.lineIdx + 1, skipped := s.skipped + 1,
            acc := 0x00, snap := 0x00, exp := 0, seen := false, hasDig := false, badCh := false,
            expOvf := false, dirty := false, output := s.output ++ [.malformed s.lineIdx c] }) ∧
      (s.params.policy = .fatal →
        exec .eol s = .next
          { s with
            phase := .faulted, cause := c,
            output := s.output ++ [.malformed s.lineIdx c, .fault c s.lineIdx] })

/-- R129: EOL with LINEIDX at its ceiling raises COUNTER_OVERFLOW before the line is classified, whatever the line. -/
def Obligations.EolFaultsAtCounterCeiling : Prop :=
  Cause.counterOverflow.code = 6 ∧
  ∀ s : State, s.phase = .run → s.lineIdx = 2 ^ s.params.cntW - 1 →
    exec .eol s = .next
      { s with
        phase := .faulted, cause := .counterOverflow,
        output := s.output ++ [.fault .counterOverflow s.lineIdx] }

/-- R112: EOS in phase RUN emits SUMMARY and ends the run; with bytes of an unterminated line it raises PROTOCOL. -/
def Obligations.EosEndsRun : Prop :=
  encode .eos = 0x400 ∧
  ∀ s : State, s.phase = .run →
    (s.dirty = false →
      exec .eos s = .next
        { s with phase := .done, output := s.output ++ [.summary s.checked s.failed s.skipped] }) ∧
    (s.dirty = true →
      exec .eos s = .next
        { s with
          phase := .faulted, cause := .protocol, output := s.output ++ [.fault .protocol s.lineIdx] })

/-- R113: ABORT in IDLE and RUN enters the fault RESOURCE_ACCESS and writes nothing else; in DONE it is a PROTOCOL fault;
in FAULTED it is ignored. -/
def Obligations.AbortFailsRun : Prop :=
  encode .abort = 0x500 ∧ Cause.resourceAccess.code = 1 ∧
  ∀ s : State,
    (s.phase = .idle ∨ s.phase = .run →
      exec .abort s = .next
        { s with
          phase := .faulted, cause := .resourceAccess,
          output := s.output ++ [.fault .resourceAccess s.lineIdx] }) ∧
    (s.phase = .done →
      exec .abort s = .next
        { s with
          phase := .faulted, cause := .protocol, output := s.output ++ [.fault .protocol s.lineIdx] }) ∧
    (s.phase = .faulted → exec .abort s = .next s)

/-- R114: a command out of place raises PROTOCOL and does nothing else (R126). -/
def Obligations.CommandOutOfPlaceRaisesProtocol : Prop :=
  Cause.protocol.code = 5 ∧
  ∀ (s : State) (i : Instr) (d : Byte),
    ((i = .char d ∨ i = .eol ∨ i = .eos) ∧ (s.phase = .idle ∨ s.phase = .done) ∨
      i = .start ∧ s.phase = .run ∨
      i = .abort ∧ s.phase = .done ∨
      i = .eos ∧ s.phase = .run ∧ s.dirty = true) →
      exec i s = .next
        { s with
          phase := .faulted, cause := .protocol, output := s.output ++ [.fault .protocol s.lineIdx] }

/-- In phase FAULTED every command but START leaves the whole state as it is (R115). -/
def Obligations.CommandIsIgnoredInFaulted : Prop :=
  ∀ (s : State) (i : Instr), s.phase = .faulted → i ≠ .start → exec i s = .next s

/-! ## The Checksum Engine -/

/-- R70: BITSTEP bit by bit: feedback is `b[0] XOR acc[0]`, both operands shift right with zero fill, and the constant
`0x8C` is XORed in when feedback is 1. -/
def Obligations.BitStepShiftsAndFeedsBack : Prop :=
  ∀ (acc b : Byte),
    let fb := acc.getLsbD 0 ^^ b.getLsbD 0
    (∀ i, i < 7 →
      (bitStep acc b).1.getLsbD i = (acc.getLsbD (i + 1) ^^ (fb && (0x8C : Byte).getLsbD i)) ∧
      (bitStep acc b).2.getLsbD i = b.getLsbD (i + 1)) ∧
    (bitStep acc b).1.getLsbD 7 = fb ∧
    (bitStep acc b).2.getLsbD 7 = false

/-- R76: the merge law, for one bit step and for eight. -/
def Obligations.BitStepMergesOperands : Prop :=
  ∀ acc b : Byte,
    (bitStep acc b).1 ^^^ (bitStep acc b).2 = mergedStep (acc ^^^ b) ∧
    byteStep acc b = mergedStep^[8] (acc ^^^ b)

/-- R77: the table law, the one ground on which a table-driven form is admitted. -/
def Obligations.ByteStepIsTableLookup : Prop :=
  (∀ acc b : Byte, byteStep acc b = crcTable (acc ^^^ b)) ∧
  (∀ p : List Byte, compute p = p.foldl (fun acc b => crcTable (acc ^^^ b)) 0x00)

/-- R78: F and T are permutations, F's inverse is the one the rule writes, and BYTESTEP is a bijection in each operand. -/
def Obligations.ByteStepIsBijective : Prop :=
  (∀ s : Byte,
    s.getLsbD 0 = (mergedStep s).getLsbD 7 ∧
    ∀ i, i < 7 →
      s.getLsbD (i + 1) = (mergedStep s ^^^ (if (mergedStep s).getLsbD 7 then 0x8C else 0x00)).getLsbD i) ∧
  Function.Bijective mergedStep ∧
  Function.Bijective crcTable ∧
  (∀ b : Byte, Function.Bijective fun acc => byteStep acc b) ∧
  (∀ acc : Byte, Function.Bijective fun b => byteStep acc b) ∧
  crcTable 0x00 = 0x00

/-- F and T are linear over XOR, and so is COMPUTE on payloads of equal length (R79). -/
def Obligations.ChecksumIsLinear : Prop :=
  (∀ x y : Byte, mergedStep (x ^^^ y) = mergedStep x ^^^ mergedStep y) ∧
  (∀ x y : Byte, crcTable (x ^^^ y) = crcTable x ^^^ crcTable y) ∧
  (∀ p q : List Byte, p.length = q.length →
    compute (List.zipWith (fun x y => x ^^^ y) p q) = compute p ^^^ compute q)

/-- Payloads of equal length that differ in exactly one byte have different checksums, whatever the difference and whatever
stands before and after it (R79). -/
def Obligations.OneByteChangeIsDetected : Prop :=
  ∀ (p q : List Byte) (x y : Byte), x ≠ y → compute (p ++ x :: q) ≠ compute (p ++ y :: q)

/-- R81: the self-cancel law. -/
def Obligations.ChecksumOfItselfIsZero : Prop :=
  (∀ x : Byte, byteStep x x = crcTable 0x00) ∧ crcTable 0x00 = 0x00 ∧
  (∀ p : List Byte, compute (p ++ [compute p]) = 0x00)

/-- After the acceptance of a byte the hidden registers go through eight bit steps: BITCNT counts them, BUSY is 1 until
the eighth, SHR is then `0x00`, and the net effect on ACC is BYTESTEP. Nothing else moves (R82, R30). That BUSY and
BITCNT fall with the eighth bit step itself is the model's reading (log entry 7). -/
def Obligations.EngineTakesEightBitSteps : Prop :=
  ∀ (s : State) (d : Byte),
    (∀ k, k < 8 →
      State.engineTick^[k] (s.loadEngine d) =
        { s with
          acc := (bitSteps k s.acc d).1, shr := (bitSteps k s.acc d).2, bitCnt := BitVec.ofNat 4 k, busy := true }) ∧
    State.engineTick^[8] (s.loadEngine d) =
      { s with acc := byteStep s.acc d, shr := 0x00, bitCnt := 0, busy := false } ∧
    s.charInRun d = State.engineTick^[8] (s.acceptChar d)

/-! ## The line validator against its reference -/

/-- R90: SPLIT finds no delimiter exactly when there is none, and otherwise parts the line at the last one. -/
def Obligations.SplitIsAtLastDelimiter : Prop :=
  ∀ line : List Byte,
    (splitLine line = none ↔ (0x2C : Byte) ∉ line) ∧
    (∀ payload trailing : List Byte,
      splitLine line = some (payload, trailing) ↔
        line = payload ++ 0x2C :: trailing ∧ (0x2C : Byte) ∉ trailing)

/-- R91, R64: PARSEDEC answers exactly on the non-empty strings of digits, and its answer is the sum of the digit values
times the powers of ten, most significant digit first. -/
def Obligations.ParseDecReadsDecimalNumeral : Prop :=
  ∀ t : List Byte,
    parseDec t =
      if t ≠ [] ∧ ∀ c ∈ t, 0x30 ≤ c.toNat ∧ c.toNat ≤ 0x39 then
        some (∑ i : Fin t.length, ((t.get i).toNat - 0x30) * 10 ^ (t.length - 1 - i))
      else none

/-- The decimal accumulation is saturating and never wraps: over any string of bytes it keeps EXP at the smaller of the
number spelled and the ceiling, and EXP_OVF says whether it was clipped (R100, R24). -/
def Obligations.ExpectedValueSaturates : Prop :=
  ∀ (p : Params) (digits : List Byte),
    digits.foldl (fun r d => (accumulateDigit p r.1 d, overflowAfter p r.2 r.1 d)) (0, false) =
      (min (decimalValue digits) (2 ^ p.expW - 1), decide (2 ^ p.expW - 1 < decimalValue digits))

/-- Because `EXP_W >= 9`, comparing the clipped number with the checksum gives the verdict of the number itself;
leading zeros do not affect it (R102). -/
def Obligations.ClippedComparisonIsExact : Prop :=
  (∀ (p : Params) (n : Nat) (actual : Byte), p.valid →
    (min n (2 ^ p.expW - 1) ≠ actual.toNat ↔ n ≠ actual.toNat)) ∧
  (∀ t : List Byte, decimalValue (0x30 :: t) = decimalValue t)

/-- From the start of a line in phase RUN, the registers track the bytes presented; nothing but the per-line registers
moves, and no event is emitted (R99). -/
def Obligations.RegistersTrackTheLine : Prop :=
  ∀ (s : State) (line : List Byte), s.phase = .run → s.EngineAtRest → s.LineClear →
    ∃ t, s.afterWords (textWords line) = .next t ∧ t.Tracks line ∧
      t = { s with
        acc := t.acc, snap := t.snap, exp := t.exp, seen := t.seen, hasDig := t.hasDig, badCh := t.badCh,
        expOvf := t.expOvf, dirty := t.dirty }

/-- A data line presented to the block does what VALIDATE_LINE says of it: the verdict decides the counters
and the events, `actual` is reported exactly, and `expected` exactly unless it is clipped and flagged (R99, R92). -/
def Obligations.LineIsJudgedAsReference : Prop :=
  ∀ (s : State) (line : List Byte),
    s.params.valid → s.phase = .run → s.EngineAtRest → s.LineClear → 1 ≤ s.lineIdx → s.lineIdx < 2 ^ s.params.cntW - 1 →
      ∃ t, s.afterWords (lineWords line) = .next t ∧
        match validateLine line with
        | .pass _ _ =>
          t = { s with
            lineIdx := s.lineIdx + 1, checked := s.checked + 1, output := s.output ++ [.progress s.lineIdx] }
        | .fail expected actual =>
          t = { s with
            lineIdx := s.lineIdx + 1, checked := s.checked + 1, failed := s.failed + 1,
            output := s.output ++
              [.progress s.lineIdx,
                .mismatch s.lineIdx (min expected (2 ^ s.params.expW - 1))
                  (decide (2 ^ s.params.expW - 1 < expected)) actual] }
        | .malformedNoDelimiter =>
          (s.params.policy = .skip →
            t = { s with
              lineIdx := s.lineIdx + 1, skipped := s.skipped + 1,
              output := s.output ++ [.malformed s.lineIdx .malformedNoDelimiter] }) ∧
          (s.params.policy = .fatal →
            t.Tracks line ∧
            t = { s with
              phase := .faulted, cause := .malformedNoDelimiter,
              acc := t.acc, snap := t.snap, exp := t.exp, seen := t.seen, hasDig := t.hasDig, badCh := t.badCh,
              expOvf := t.expOvf, dirty := t.dirty,
              output := s.output ++
                [.malformed s.lineIdx .malformedNoDelimiter, .fault .malformedNoDelimiter s.lineIdx] })
        | .malformedBadInteger =>
          (s.params.policy = .skip →
            t = { s with
              lineIdx := s.lineIdx + 1, skipped := s.skipped + 1,
              output := s.output ++ [.malformed s.lineIdx .malformedBadInteger] }) ∧
          (s.params.policy = .fatal →
            t.Tracks line ∧
            t = { s with
              phase := .faulted, cause := .malformedBadInteger,
              acc := t.acc, snap := t.snap, exp := t.exp, seen := t.seen, hasDig := t.hasDig, badCh := t.badCh,
              expOvf := t.expOvf, dirty := t.dirty,
              output := s.output ++
                [.malformed s.lineIdx .malformedBadInteger, .fault .malformedBadInteger s.lineIdx] })

/-- R116: the command stream `RUN lines` emits exactly the events of VALIDATE and ends as VALIDATE says, from any phase
in which START is legal and whatever the registers held. -/
def Obligations.RunComputesReferenceValidation : Prop :=
  ∀ (s : State) (lines : List (List Byte)),
    s.params.valid → s.phase ≠ .run → s.EngineAtRest → lines.length ≤ 2 ^ s.params.cntW - 1 →
      ∃ t, s.afterWords (runWords lines) = .next t ∧ t.input = s.input ∧
        match validate s.params lines with
        | .done checked failed skipped events =>
          t.phase = .done ∧ t.cause = .none ∧ t.lineIdx = lines.length ∧ t.checked = checked ∧ t.failed = failed ∧
          t.skipped = skipped ∧ t.LineClear ∧ t.output = s.output ++ events
        | .faulted cause line events =>
          t.phase = .faulted ∧ t.cause = cause ∧ t.lineIdx = line ∧ t.output = s.output ++ events

/-- R118: the events and the registers at the end of any stream that begins with START are a function of the parameters
and the stream alone: two blocks that differ in every register but the hidden ones at rest end alike. -/
def Obligations.RunDependsOnStreamAlone : Prop :=
  ∀ (s₁ s₂ : State) (ws : List CmdWord),
    s₁.params = s₂.params → s₁.EngineAtRest → s₂.EngineAtRest → s₁.phase ≠ .run → s₂.phase ≠ .run →
      ∃ t₁ t₂ events,
        s₁.afterWords (encode .start :: ws) = .next t₁ ∧ s₂.afterWords (encode .start :: ws) = .next t₂ ∧
        t₁.params = t₂.params ∧ t₁.registers = t₂.registers ∧ t₁.output = s₁.output ++ events ∧ t₂.output = s₂.output ++ events

/-! ## Invariants -/

/-- Every step keeps the invariants of the registers: those of R25, with the bounds of R101 and R17. -/
def Obligations.RegistersStayConsistent : Prop :=
  ∀ s t : State, s.Inv → step s = .next t → t.Inv

/-- The invariants hold after reset, for every choice of the parameters in their ranges (R7, R25, R32). -/
def Obligations.ResetStateIsConsistent : Prop :=
  State.reset.Inv ∧ ∀ p : Params, p.valid → (State.resetWith p).Inv

/-- In every reachable faulted state the registers still show what CAUSE names (R121, R123, R124, R129). -/
def Obligations.CauseStaysExplained : Prop :=
  ∀ s t : State, s.Inv → s.CauseExplained → step s = .next t → t.CauseExplained

/-- Every event emitted has legal fields, within the widths of its parameters (R62). -/
def Obligations.EmittedEventsAreLegal : Prop :=
  ∀ s t : State, s.Inv → s.OutputLegal → step s = .next t → t.OutputLegal

/-- In DONE the last event is the SUMMARY of the counters as they stand, in FAULTED it is the FAULT of the cause and line
as they stand (R29, R160). -/
def Obligations.LastEventTellsEndOfRun : Prop :=
  ∀ s t : State, s.LastEventTellsEnd → step s = .next t → t.LastEventTellsEnd

/-- What these invariants say holds after reset. -/
def Obligations.ResetStateIsExplained : Prop :=
  State.reset.CauseExplained ∧ State.reset.OutputLegal ∧ State.reset.LastEventTellsEnd

/-! ## Status registers -/

/-- The code numbers of the phases (R19), of the causes (R121) and of the event kinds (R61). -/
def Obligations.CodesAreThoseOfTheTables : Prop :=
  [Phase.idle, .run, .done, .faulted].map Phase.code = [0, 1, 2, 3] ∧
  [Cause.none, .resourceAccess, .malformedNoDelimiter, .malformedBadInteger, .illegalCommand, .protocol,
    .counterOverflow].map Cause.code = [0, 1, 2, 3, 4, 5, 6] ∧
  ∀ (i x c f k : Nat) (b : Bool) (a : Byte) (e : Cause),
    [Event.runBegin, .header i b, .progress i, .mismatch i x b a, .malformed i e, .summary c f k, .fault e i].map
      Event.kindCode = [1, 2, 3, 4, 5, 6, 7]

/-- R28: the fields of SR0, and SR0 after reset. -/
def Obligations.StatusFieldsArePacked : Prop :=
  State.reset.sr0 = 0x000 ∧
  ∀ s : State,
    s.sr0.extractLsb' 0 2 = s.phase.code ∧ s.sr0.extractLsb' 2 4 = s.cause.code ∧
    s.sr0.getLsbD 6 = s.seen ∧ s.sr0.getLsbD 7 = s.hasDig ∧ s.sr0.getLsbD 8 = s.badCh ∧
    s.sr0.getLsbD 9 = s.expOvf ∧ s.sr0.getLsbD 10 = s.dirty ∧ s.sr0.getLsbD 11 = decide (s.failed ≠ 0)

/-- A status read returns the whole register, with nothing cut off, in every state of the invariant (R27, R29). -/
def Obligations.StatusReadReturnsRegister : Prop :=
  ∀ s : State, s.Inv →
    (s.readStatus 0).toNat = s.sr0.toNat ∧ (s.readStatus 1).toNat = s.acc.toNat ∧
    (s.readStatus 2).toNat = s.snap.toNat ∧ (s.readStatus 3).toNat = s.exp ∧
    (s.readStatus 4).toNat = s.lineIdx ∧ (s.readStatus 5).toNat = s.checked ∧
    (s.readStatus 6).toNat = s.failed ∧ (s.readStatus 7).toNat = s.skipped

/-! ## The ports -/

/-- The block at its ports refines the command-level machine. Every edge is answered unless the host changes a word that
waits; an edge that accepts a word is one `step` on that word, an edge under reset takes the reset state, and every
other edge leaves the state as it will be once the command in execution has completed (R150, R156). That reset wins over
an acceptable command at the same edge is log entry 11 (DEDUCED), and that the pace of the bit steps and of the event
port is an input of every edge are log entries 9 and 22. -/
def Obligations.PortsRefineCommandSteps : Prop :=
  ∀ (p : PortState) (pins : Pins), p.Inv →
    (pins.rst = false → pins.cmdValid = true → ∀ w, p.offered = some w → w = pins.cmd) →
      ∃ q, p.edge pins = .next q ∧
        if pins.rst = true then q.core = p.completed.resetBlock
        else if p.cmdReady = true ∧ pins.cmdValid = true then
          step { p.core with input := .command pins.cmd :: p.core.input } = .next q.completed
        else q.completed = p.completed

/-- Every edge keeps what holds at the ports: at most two events wait, none while BUSY is 1, and BUSY means inside the
eight bit steps of a CHAR (R30, R156, R157). -/
def Obligations.PortsStayConsistent : Prop :=
  ∀ (p q : PortState) (pins : Pins), p.Inv → p.edge pins = .next q → q.Inv

/-- What holds at the ports holds after reset. -/
def Obligations.ResetPortsAreConsistent : Prop :=
  PortState.reset.Inv ∧ PortState.reset.AllDelivered

/-- Without a reset no event is ever dropped, overwritten or reordered: what the host has taken and what waits is all that
was emitted; an event on the port is taken where `evt_ready` is high and otherwise stays as it is; and where none is on
the port the host takes none (R157). When an event comes onto the port is an input of every edge (log entry 22). -/
def Obligations.NoEventIsLost : Prop :=
  ∀ (p q : PortState) (pins : Pins), pins.rst = false → p.edge pins = .next q →
    (p.AllDelivered → q.AllDelivered) ∧
    (p.evtValid = true → pins.evtReady = true → q.taken = p.taken ++ p.evt.toList) ∧
    (p.evtValid = true → pins.evtReady = false → q.evtValid = true ∧ q.evt = p.evt ∧ q.taken = p.taken) ∧
    (p.evtValid = false → q.taken = p.taken)

/-- Whatever the engine's state, reset at the ports leaves every register zero, drops the events not yet taken, keeps
those taken, and emits none (R150), whatever else the pins say: that reset wins over a valid or a changed command at the
same edge is log entry 11 (DEDUCED). That the event list and the host's stream are fields of State are log entries 1
and 4. -/
def Obligations.ResetFallsAnywhere : Prop :=
  ∀ (p : PortState) (pins : Pins), pins.rst = true →
    ∃ q, p.edge pins = .next q ∧ q.waiting = [] ∧ q.taken = p.taken ∧
      q.core = { State.resetWith p.core.params with output := p.core.output, input := p.core.input }

/-- While BUSY is 1 the engine is inside the bit steps of one CHAR, and a status read sees the state from before that very
CHAR was accepted or the state `exec` of it gives, and never one between (R30). Which of the two is a free value (log
entry 10). -/
def Obligations.StatusReadSeesNoHalfDoneByte : Prop :=
  ∀ (p : PortState) (n : BitVec 3), p.Inv → p.core.busy = true →
    (∃ (d : Byte) (k : Nat), k < 8 ∧ p.core = State.engineTick^[k] (p.atAccept.acceptChar d)) ∧
    ∀ (d : Byte) (k : Nat), k < 8 → p.core = State.engineTick^[k] (p.atAccept.acceptChar d) →
      exec (.char d) p.atAccept = .next p.completed ∧
      (p.readView n = p.atAccept ∨ p.readView n = p.completed)

/-- A word changed while it waits for `cmd_ready` is refused by name (R152: "the model has no such step"). That the refusal
is the model's form of having no step is its choice (log entry 12). -/
def Obligations.ChangedCommandIsRefused : Prop :=
  ∀ (p : PortState) (pins : Pins) (w : CmdWord),
    pins.rst = false → pins.cmdValid = true → p.offered = some w → w ≠ pins.cmd →
      p.edge pins = .refused .unstableCommand

/-! ## The state record, and the result of a run -/

/-- The step is the spec's `(state, command word) -> (state, list of events)` over the registers alone (R50, R155): for
every word, the registers after it and the events it emits are a function of the parameters, the registers and the word;
the parameters, the events emitted before and the host's stream are carried along and never read (R33, and log entries
1, 2 and 4 for their being fields of State). -/
def Obligations.StepReadsRegistersAlone : Prop :=
  ∀ (s : State) (w : CmdWord) (rest : List PortInput),
    s.busy = false → s.input = .command w :: rest →
      ∃ (r : Registers) (events : List Event),
        Registers.command s.params w s.registers = some (r, events) ∧
        step s = .next { registers := r, params := s.params, output := s.output ++ events, input := rest }

/-- The result of the run `RUN lines` is what VALIDATE returns, events included, whatever the host does after the end of
the run: more commands, a command out of place, a reset, another run; and the runs that follow have the results they
have from the state at its end (R160, R9, R116, R151). The notion of a result, a value of the model's own type, is log
entry 23. -/
def Obligations.RunResultIsReferenceResult : Prop :=
  ∀ (s : State) (lines : List (List Byte)) (more : List PortInput),
    s.params.valid → s.phase ≠ .run → s.EngineAtRest → lines.length ≤ 2 ^ s.params.cntW - 1 →
      let result : RunResult :=
        match validate s.params lines with
        | .done checked failed skipped events => .summary checked failed skipped events
        | .faulted cause line events => .failure cause line events
      s.runResult ((runWords lines).map .command ++ more) = result ∧
      ∃ t, s.afterWords (runWords lines) = .next t ∧
        s.runResults ((runWords lines).map .command ++ more) = result :: t.runResults more

/-- With no run open, an ABORT in IDLE is a run of that one command, a failure with no RUN_BEGIN among its events; every
other word but START, whatever fault it raises, belongs to no run and adds no result and no event to one (R9, R160). The
notion of a result, a value of the model's own type, is log entry 23. -/
def Obligations.FaultOutsideRunIsNoRun : Prop :=
  ∀ (s : State) (w : CmdWord) (more : List PortInput),
    s.busy = false → s.phase ≠ .run → w ≠ encode .start →
      ∃ t, s.afterWords [w] = .next t ∧
        s.runResults (.command w :: more) =
          (if s.phase = .idle ∧ w = encode .abort then
            [.failure .resourceAccess s.lineIdx [.fault .resourceAccess s.lineIdx]]
          else []) ++ t.runResults more
end

