-- ==== Sys2Proof/Laws/Decode.lean ====
section
/-!
SUPPORT. The fields of a command word and the opcode map, both ways (30_encoding.md R50, R51).
-/

namespace Sys2Proof

theorem Opcode.ofBits_bits (op : Opcode) : Opcode.ofBits op.bits = op := by cases op <;> rfl

theorem Opcode.bits_ofBits : ∀ b : BitVec 3, (Opcode.ofBits b).bits = b := by decide

/-- The word built from two fields has these two fields. -/
theorem Command.fields_word (c : Command) : CmdWord.fields c.word = c := by
  have ho : CmdWord.opBits c.word = c.op.bits := BitVec.extractLsb'_append_eq_left
  have hd : CmdWord.operand c.word = c.d := BitVec.extractLsb'_append_eq_right
  simp [CmdWord.fields, ho, hd, Opcode.ofBits_bits]

/-- A word is built from its two fields. -/
theorem CmdWord.word_fields (w : CmdWord) : (CmdWord.fields w).word = w := by
  simp only [CmdWord.fields, Command.word, Opcode.bits_ofBits]
  apply BitVec.eq_of_getLsbD_eq
  intro i hi
  simp only [CmdWord.opBits, CmdWord.operand, BitVec.getLsbD_append, BitVec.getLsbD_extractLsb']
  by_cases h8 : i < 8
  · simp [h8]
  · have h3 : i - 8 < 3 := by omega
    have hi8 : 8 + (i - 8) = i := by omega
    simp [h8, h3, hi8]

end Sys2Proof
end

