-- ==== Sys2Proof/Laws/State.lean ====
section
/-!
SUPPORT. One lemma per field per update of State, true by rfl, so that no proof unfolds a record update.
-/

namespace Sys2Proof.Machine

/-! ## emit -/

@[simp] theorem State.emit_params (e : Event) (s : State) : (State.emit e s).params = s.params := rfl
@[simp] theorem State.emit_acc (e : Event) (s : State) : (State.emit e s).acc = s.acc := rfl
@[simp] theorem State.emit_snap (e : Event) (s : State) : (State.emit e s).snap = s.snap := rfl
@[simp] theorem State.emit_exp (e : Event) (s : State) : (State.emit e s).exp = s.exp := rfl
@[simp] theorem State.emit_lineIdx (e : Event) (s : State) : (State.emit e s).lineIdx = s.lineIdx := rfl
@[simp] theorem State.emit_checked (e : Event) (s : State) : (State.emit e s).checked = s.checked := rfl
@[simp] theorem State.emit_failed (e : Event) (s : State) : (State.emit e s).failed = s.failed := rfl
@[simp] theorem State.emit_skipped (e : Event) (s : State) : (State.emit e s).skipped = s.skipped := rfl
@[simp] theorem State.emit_phase (e : Event) (s : State) : (State.emit e s).phase = s.phase := rfl
@[simp] theorem State.emit_cause (e : Event) (s : State) : (State.emit e s).cause = s.cause := rfl
@[simp] theorem State.emit_seen (e : Event) (s : State) : (State.emit e s).seen = s.seen := rfl
@[simp] theorem State.emit_hasDig (e : Event) (s : State) : (State.emit e s).hasDig = s.hasDig := rfl
@[simp] theorem State.emit_badCh (e : Event) (s : State) : (State.emit e s).badCh = s.badCh := rfl
@[simp] theorem State.emit_expOvf (e : Event) (s : State) : (State.emit e s).expOvf = s.expOvf := rfl
@[simp] theorem State.emit_dirty (e : Event) (s : State) : (State.emit e s).dirty = s.dirty := rfl
@[simp] theorem State.emit_shr (e : Event) (s : State) : (State.emit e s).shr = s.shr := rfl
@[simp] theorem State.emit_bitCnt (e : Event) (s : State) : (State.emit e s).bitCnt = s.bitCnt := rfl
@[simp] theorem State.emit_busy (e : Event) (s : State) : (State.emit e s).busy = s.busy := rfl
@[simp] theorem State.emit_output (e : Event) (s : State) : (State.emit e s).output = s.output ++ [e] := rfl
@[simp] theorem State.emit_input (e : Event) (s : State) : (State.emit e s).input = s.input := rfl

/-! ## raise -/

@[simp] theorem State.raise_params (c : Cause) (s : State) : (State.raise c s).params = s.params := rfl
@[simp] theorem State.raise_acc (c : Cause) (s : State) : (State.raise c s).acc = s.acc := rfl
@[simp] theorem State.raise_snap (c : Cause) (s : State) : (State.raise c s).snap = s.snap := rfl
@[simp] theorem State.raise_exp (c : Cause) (s : State) : (State.raise c s).exp = s.exp := rfl
@[simp] theorem State.raise_lineIdx (c : Cause) (s : State) : (State.raise c s).lineIdx = s.lineIdx := rfl
@[simp] theorem State.raise_checked (c : Cause) (s : State) : (State.raise c s).checked = s.checked := rfl
@[simp] theorem State.raise_failed (c : Cause) (s : State) : (State.raise c s).failed = s.failed := rfl
@[simp] theorem State.raise_skipped (c : Cause) (s : State) : (State.raise c s).skipped = s.skipped := rfl
@[simp] theorem State.raise_phase (c : Cause) (s : State) : (State.raise c s).phase = .faulted := rfl
@[simp] theorem State.raise_cause (c : Cause) (s : State) : (State.raise c s).cause = c := rfl
@[simp] theorem State.raise_seen (c : Cause) (s : State) : (State.raise c s).seen = s.seen := rfl
@[simp] theorem State.raise_hasDig (c : Cause) (s : State) : (State.raise c s).hasDig = s.hasDig := rfl
@[simp] theorem State.raise_badCh (c : Cause) (s : State) : (State.raise c s).badCh = s.badCh := rfl
@[simp] theorem State.raise_expOvf (c : Cause) (s : State) : (State.raise c s).expOvf = s.expOvf := rfl
@[simp] theorem State.raise_dirty (c : Cause) (s : State) : (State.raise c s).dirty = s.dirty := rfl
@[simp] theorem State.raise_shr (c : Cause) (s : State) : (State.raise c s).shr = s.shr := rfl
@[simp] theorem State.raise_bitCnt (c : Cause) (s : State) : (State.raise c s).bitCnt = s.bitCnt := rfl
@[simp] theorem State.raise_busy (c : Cause) (s : State) : (State.raise c s).busy = s.busy := rfl
@[simp] theorem State.raise_output (c : Cause) (s : State) : (State.raise c s).output = s.output ++ [.fault c s.lineIdx] := rfl
@[simp] theorem State.raise_input (c : Cause) (s : State) : (State.raise c s).input = s.input := rfl

/-! ## beginRun -/

@[simp] theorem State.beginRun_params (s : State) : (s.beginRun).params = s.params := rfl
@[simp] theorem State.beginRun_acc (s : State) : (s.beginRun).acc = 0x00 := rfl
@[simp] theorem State.beginRun_snap (s : State) : (s.beginRun).snap = 0x00 := rfl
@[simp] theorem State.beginRun_exp (s : State) : (s.beginRun).exp = 0 := rfl
@[simp] theorem State.beginRun_lineIdx (s : State) : (s.beginRun).lineIdx = 0 := rfl
@[simp] theorem State.beginRun_checked (s : State) : (s.beginRun).checked = 0 := rfl
@[simp] theorem State.beginRun_failed (s : State) : (s.beginRun).failed = 0 := rfl
@[simp] theorem State.beginRun_skipped (s : State) : (s.beginRun).skipped = 0 := rfl
@[simp] theorem State.beginRun_phase (s : State) : (s.beginRun).phase = .run := rfl
@[simp] theorem State.beginRun_cause (s : State) : (s.beginRun).cause = .none := rfl
@[simp] theorem State.beginRun_seen (s : State) : (s.beginRun).seen = false := rfl
@[simp] theorem State.beginRun_hasDig (s : State) : (s.beginRun).hasDig = false := rfl
@[simp] theorem State.beginRun_badCh (s : State) : (s.beginRun).badCh = false := rfl
@[simp] theorem State.beginRun_expOvf (s : State) : (s.beginRun).expOvf = false := rfl
@[simp] theorem State.beginRun_dirty (s : State) : (s.beginRun).dirty = false := rfl
@[simp] theorem State.beginRun_shr (s : State) : (s.beginRun).shr = s.shr := rfl
@[simp] theorem State.beginRun_bitCnt (s : State) : (s.beginRun).bitCnt = s.bitCnt := rfl
@[simp] theorem State.beginRun_busy (s : State) : (s.beginRun).busy = s.busy := rfl
@[simp] theorem State.beginRun_output (s : State) : (s.beginRun).output = s.output ++ [.runBegin] := rfl
@[simp] theorem State.beginRun_input (s : State) : (s.beginRun).input = s.input := rfl

/-! ## endRun -/

@[simp] theorem State.endRun_params (s : State) : (s.endRun).params = s.params := rfl
@[simp] theorem State.endRun_acc (s : State) : (s.endRun).acc = s.acc := rfl
@[simp] theorem State.endRun_snap (s : State) : (s.endRun).snap = s.snap := rfl
@[simp] theorem State.endRun_exp (s : State) : (s.endRun).exp = s.exp := rfl
@[simp] theorem State.endRun_lineIdx (s : State) : (s.endRun).lineIdx = s.lineIdx := rfl
@[simp] theorem State.endRun_checked (s : State) : (s.endRun).checked = s.checked := rfl
@[simp] theorem State.endRun_failed (s : State) : (s.endRun).failed = s.failed := rfl
@[simp] theorem State.endRun_skipped (s : State) : (s.endRun).skipped = s.skipped := rfl
@[simp] theorem State.endRun_phase (s : State) : (s.endRun).phase = .done := rfl
@[simp] theorem State.endRun_cause (s : State) : (s.endRun).cause = s.cause := rfl
@[simp] theorem State.endRun_seen (s : State) : (s.endRun).seen = s.seen := rfl
@[simp] theorem State.endRun_hasDig (s : State) : (s.endRun).hasDig = s.hasDig := rfl
@[simp] theorem State.endRun_badCh (s : State) : (s.endRun).badCh = s.badCh := rfl
@[simp] theorem State.endRun_expOvf (s : State) : (s.endRun).expOvf = s.expOvf := rfl
@[simp] theorem State.endRun_dirty (s : State) : (s.endRun).dirty = s.dirty := rfl
@[simp] theorem State.endRun_shr (s : State) : (s.endRun).shr = s.shr := rfl
@[simp] theorem State.endRun_bitCnt (s : State) : (s.endRun).bitCnt = s.bitCnt := rfl
@[simp] theorem State.endRun_busy (s : State) : (s.endRun).busy = s.busy := rfl
@[simp] theorem State.endRun_output (s : State) : (s.endRun).output = s.output := rfl
@[simp] theorem State.endRun_input (s : State) : (s.endRun).input = s.input := rfl

/-! ## resetBlock -/

@[simp] theorem State.resetBlock_params (s : State) : (s.resetBlock).params = s.params := rfl
@[simp] theorem State.resetBlock_acc (s : State) : (s.resetBlock).acc = 0x00 := rfl
@[simp] theorem State.resetBlock_snap (s : State) : (s.resetBlock).snap = 0x00 := rfl
@[simp] theorem State.resetBlock_exp (s : State) : (s.resetBlock).exp = 0 := rfl
@[simp] theorem State.resetBlock_lineIdx (s : State) : (s.resetBlock).lineIdx = 0 := rfl
@[simp] theorem State.resetBlock_checked (s : State) : (s.resetBlock).checked = 0 := rfl
@[simp] theorem State.resetBlock_failed (s : State) : (s.resetBlock).failed = 0 := rfl
@[simp] theorem State.resetBlock_skipped (s : State) : (s.resetBlock).skipped = 0 := rfl
@[simp] theorem State.resetBlock_phase (s : State) : (s.resetBlock).phase = .idle := rfl
@[simp] theorem State.resetBlock_cause (s : State) : (s.resetBlock).cause = .none := rfl
@[simp] theorem State.resetBlock_seen (s : State) : (s.resetBlock).seen = false := rfl
@[simp] theorem State.resetBlock_hasDig (s : State) : (s.resetBlock).hasDig = false := rfl
@[simp] theorem State.resetBlock_badCh (s : State) : (s.resetBlock).badCh = false := rfl
@[simp] theorem State.resetBlock_expOvf (s : State) : (s.resetBlock).expOvf = false := rfl
@[simp] theorem State.resetBlock_dirty (s : State) : (s.resetBlock).dirty = false := rfl
@[simp] theorem State.resetBlock_shr (s : State) : (s.resetBlock).shr = 0x00 := rfl
@[simp] theorem State.resetBlock_bitCnt (s : State) : (s.resetBlock).bitCnt = 0 := rfl
@[simp] theorem State.resetBlock_busy (s : State) : (s.resetBlock).busy = false := rfl
@[simp] theorem State.resetBlock_output (s : State) : (s.resetBlock).output = s.output := rfl
@[simp] theorem State.resetBlock_input (s : State) : (s.resetBlock).input = s.input := rfl

/-! ## closeLine -/

@[simp] theorem State.closeLine_params (s : State) : (s.closeLine).params = s.params := rfl
@[simp] theorem State.closeLine_acc (s : State) : (s.closeLine).acc = 0x00 := rfl
@[simp] theorem State.closeLine_snap (s : State) : (s.closeLine).snap = 0x00 := rfl
@[simp] theorem State.closeLine_exp (s : State) : (s.closeLine).exp = 0 := rfl
@[simp] theorem State.closeLine_lineIdx (s : State) : (s.closeLine).lineIdx = s.lineIdx + 1 := rfl
@[simp] theorem State.closeLine_checked (s : State) : (s.closeLine).checked = s.checked := rfl
@[simp] theorem State.closeLine_failed (s : State) : (s.closeLine).failed = s.failed := rfl
@[simp] theorem State.closeLine_skipped (s : State) : (s.closeLine).skipped = s.skipped := rfl
@[simp] theorem State.closeLine_phase (s : State) : (s.closeLine).phase = s.phase := rfl
@[simp] theorem State.closeLine_cause (s : State) : (s.closeLine).cause = s.cause := rfl
@[simp] theorem State.closeLine_seen (s : State) : (s.closeLine).seen = false := rfl
@[simp] theorem State.closeLine_hasDig (s : State) : (s.closeLine).hasDig = false := rfl
@[simp] theorem State.closeLine_badCh (s : State) : (s.closeLine).badCh = false := rfl
@[simp] theorem State.closeLine_expOvf (s : State) : (s.closeLine).expOvf = false := rfl
@[simp] theorem State.closeLine_dirty (s : State) : (s.closeLine).dirty = false := rfl
@[simp] theorem State.closeLine_shr (s : State) : (s.closeLine).shr = s.shr := rfl
@[simp] theorem State.closeLine_bitCnt (s : State) : (s.closeLine).bitCnt = s.bitCnt := rfl
@[simp] theorem State.closeLine_busy (s : State) : (s.closeLine).busy = s.busy := rfl
@[simp] theorem State.closeLine_output (s : State) : (s.closeLine).output = s.output := rfl
@[simp] theorem State.closeLine_input (s : State) : (s.closeLine).input = s.input := rfl

/-! ## countChecked -/

@[simp] theorem State.countChecked_params (s : State) : (s.countChecked).params = s.params := rfl
@[simp] theorem State.countChecked_acc (s : State) : (s.countChecked).acc = s.acc := rfl
@[simp] theorem State.countChecked_snap (s : State) : (s.countChecked).snap = s.snap := rfl
@[simp] theorem State.countChecked_exp (s : State) : (s.countChecked).exp = s.exp := rfl
@[simp] theorem State.countChecked_lineIdx (s : State) : (s.countChecked).lineIdx = s.lineIdx := rfl
@[simp] theorem State.countChecked_checked (s : State) : (s.countChecked).checked = s.checked + 1 := rfl
@[simp] theorem State.countChecked_failed (s : State) : (s.countChecked).failed = s.failed := rfl
@[simp] theorem State.countChecked_skipped (s : State) : (s.countChecked).skipped = s.skipped := rfl
@[simp] theorem State.countChecked_phase (s : State) : (s.countChecked).phase = s.phase := rfl
@[simp] theorem State.countChecked_cause (s : State) : (s.countChecked).cause = s.cause := rfl
@[simp] theorem State.countChecked_seen (s : State) : (s.countChecked).seen = s.seen := rfl
@[simp] theorem State.countChecked_hasDig (s : State) : (s.countChecked).hasDig = s.hasDig := rfl
@[simp] theorem State.countChecked_badCh (s : State) : (s.countChecked).badCh = s.badCh := rfl
@[simp] theorem State.countChecked_expOvf (s : State) : (s.countChecked).expOvf = s.expOvf := rfl
@[simp] theorem State.countChecked_dirty (s : State) : (s.countChecked).dirty = s.dirty := rfl
@[simp] theorem State.countChecked_shr (s : State) : (s.countChecked).shr = s.shr := rfl
@[simp] theorem State.countChecked_bitCnt (s : State) : (s.countChecked).bitCnt = s.bitCnt := rfl
@[simp] theorem State.countChecked_busy (s : State) : (s.countChecked).busy = s.busy := rfl
@[simp] theorem State.countChecked_output (s : State) : (s.countChecked).output = s.output := rfl
@[simp] theorem State.countChecked_input (s : State) : (s.countChecked).input = s.input := rfl

/-! ## countFailed -/

@[simp] theorem State.countFailed_params (s : State) : (s.countFailed).params = s.params := rfl
@[simp] theorem State.countFailed_acc (s : State) : (s.countFailed).acc = s.acc := rfl
@[simp] theorem State.countFailed_snap (s : State) : (s.countFailed).snap = s.snap := rfl
@[simp] theorem State.countFailed_exp (s : State) : (s.countFailed).exp = s.exp := rfl
@[simp] theorem State.countFailed_lineIdx (s : State) : (s.countFailed).lineIdx = s.lineIdx := rfl
@[simp] theorem State.countFailed_checked (s : State) : (s.countFailed).checked = s.checked := rfl
@[simp] theorem State.countFailed_failed (s : State) : (s.countFailed).failed = s.failed + 1 := rfl
@[simp] theorem State.countFailed_skipped (s : State) : (s.countFailed).skipped = s.skipped := rfl
@[simp] theorem State.countFailed_phase (s : State) : (s.countFailed).phase = s.phase := rfl
@[simp] theorem State.countFailed_cause (s : State) : (s.countFailed).cause = s.cause := rfl
@[simp] theorem State.countFailed_seen (s : State) : (s.countFailed).seen = s.seen := rfl
@[simp] theorem State.countFailed_hasDig (s : State) : (s.countFailed).hasDig = s.hasDig := rfl
@[simp] theorem State.countFailed_badCh (s : State) : (s.countFailed).badCh = s.badCh := rfl
@[simp] theorem State.countFailed_expOvf (s : State) : (s.countFailed).expOvf = s.expOvf := rfl
@[simp] theorem State.countFailed_dirty (s : State) : (s.countFailed).dirty = s.dirty := rfl
@[simp] theorem State.countFailed_shr (s : State) : (s.countFailed).shr = s.shr := rfl
@[simp] theorem State.countFailed_bitCnt (s : State) : (s.countFailed).bitCnt = s.bitCnt := rfl
@[simp] theorem State.countFailed_busy (s : State) : (s.countFailed).busy = s.busy := rfl
@[simp] theorem State.countFailed_output (s : State) : (s.countFailed).output = s.output := rfl
@[simp] theorem State.countFailed_input (s : State) : (s.countFailed).input = s.input := rfl

/-! ## countSkipped -/

@[simp] theorem State.countSkipped_params (s : State) : (s.countSkipped).params = s.params := rfl
@[simp] theorem State.countSkipped_acc (s : State) : (s.countSkipped).acc = s.acc := rfl
@[simp] theorem State.countSkipped_snap (s : State) : (s.countSkipped).snap = s.snap := rfl
@[simp] theorem State.countSkipped_exp (s : State) : (s.countSkipped).exp = s.exp := rfl
@[simp] theorem State.countSkipped_lineIdx (s : State) : (s.countSkipped).lineIdx = s.lineIdx := rfl
@[simp] theorem State.countSkipped_checked (s : State) : (s.countSkipped).checked = s.checked := rfl
@[simp] theorem State.countSkipped_failed (s : State) : (s.countSkipped).failed = s.failed := rfl
@[simp] theorem State.countSkipped_skipped (s : State) : (s.countSkipped).skipped = s.skipped + 1 := rfl
@[simp] theorem State.countSkipped_phase (s : State) : (s.countSkipped).phase = s.phase := rfl
@[simp] theorem State.countSkipped_cause (s : State) : (s.countSkipped).cause = s.cause := rfl
@[simp] theorem State.countSkipped_seen (s : State) : (s.countSkipped).seen = s.seen := rfl
@[simp] theorem State.countSkipped_hasDig (s : State) : (s.countSkipped).hasDig = s.hasDig := rfl
@[simp] theorem State.countSkipped_badCh (s : State) : (s.countSkipped).badCh = s.badCh := rfl
@[simp] theorem State.countSkipped_expOvf (s : State) : (s.countSkipped).expOvf = s.expOvf := rfl
@[simp] theorem State.countSkipped_dirty (s : State) : (s.countSkipped).dirty = s.dirty := rfl
@[simp] theorem State.countSkipped_shr (s : State) : (s.countSkipped).shr = s.shr := rfl
@[simp] theorem State.countSkipped_bitCnt (s : State) : (s.countSkipped).bitCnt = s.bitCnt := rfl
@[simp] theorem State.countSkipped_busy (s : State) : (s.countSkipped).busy = s.busy := rfl
@[simp] theorem State.countSkipped_output (s : State) : (s.countSkipped).output = s.output := rfl
@[simp] theorem State.countSkipped_input (s : State) : (s.countSkipped).input = s.input := rfl

/-! ## noteDelimiter -/

@[simp] theorem State.noteDelimiter_params (s : State) : (s.noteDelimiter).params = s.params := rfl
@[simp] theorem State.noteDelimiter_acc (s : State) : (s.noteDelimiter).acc = s.acc := rfl
@[simp] theorem State.noteDelimiter_snap (s : State) : (s.noteDelimiter).snap = s.acc := rfl
@[simp] theorem State.noteDelimiter_exp (s : State) : (s.noteDelimiter).exp = 0 := rfl
@[simp] theorem State.noteDelimiter_lineIdx (s : State) : (s.noteDelimiter).lineIdx = s.lineIdx := rfl
@[simp] theorem State.noteDelimiter_checked (s : State) : (s.noteDelimiter).checked = s.checked := rfl
@[simp] theorem State.noteDelimiter_failed (s : State) : (s.noteDelimiter).failed = s.failed := rfl
@[simp] theorem State.noteDelimiter_skipped (s : State) : (s.noteDelimiter).skipped = s.skipped := rfl
@[simp] theorem State.noteDelimiter_phase (s : State) : (s.noteDelimiter).phase = s.phase := rfl
@[simp] theorem State.noteDelimiter_cause (s : State) : (s.noteDelimiter).cause = s.cause := rfl
@[simp] theorem State.noteDelimiter_seen (s : State) : (s.noteDelimiter).seen = true := rfl
@[simp] theorem State.noteDelimiter_hasDig (s : State) : (s.noteDelimiter).hasDig = false := rfl
@[simp] theorem State.noteDelimiter_badCh (s : State) : (s.noteDelimiter).badCh = false := rfl
@[simp] theorem State.noteDelimiter_expOvf (s : State) : (s.noteDelimiter).expOvf = false := rfl
@[simp] theorem State.noteDelimiter_dirty (s : State) : (s.noteDelimiter).dirty = s.dirty := rfl
@[simp] theorem State.noteDelimiter_shr (s : State) : (s.noteDelimiter).shr = s.shr := rfl
@[simp] theorem State.noteDelimiter_bitCnt (s : State) : (s.noteDelimiter).bitCnt = s.bitCnt := rfl
@[simp] theorem State.noteDelimiter_busy (s : State) : (s.noteDelimiter).busy = s.busy := rfl
@[simp] theorem State.noteDelimiter_output (s : State) : (s.noteDelimiter).output = s.output := rfl
@[simp] theorem State.noteDelimiter_input (s : State) : (s.noteDelimiter).input = s.input := rfl

/-! ## noteDigit -/

@[simp] theorem State.noteDigit_params (e : Nat) (ovf : Bool) (s : State) : (State.noteDigit e ovf s).params = s.params := rfl
@[simp] theorem State.noteDigit_acc (e : Nat) (ovf : Bool) (s : State) : (State.noteDigit e ovf s).acc = s.acc := rfl
@[simp] theorem State.noteDigit_snap (e : Nat) (ovf : Bool) (s : State) : (State.noteDigit e ovf s).snap = s.snap := rfl
@[simp] theorem State.noteDigit_exp (e : Nat) (ovf : Bool) (s : State) : (State.noteDigit e ovf s).exp = e := rfl
@[simp] theorem State.noteDigit_lineIdx (e : Nat) (ovf : Bool) (s : State) : (State.noteDigit e ovf s).lineIdx = s.lineIdx := rfl
@[simp] theorem State.noteDigit_checked (e : Nat) (ovf : Bool) (s : State) : (State.noteDigit e ovf s).checked = s.checked := rfl
@[simp] theorem State.noteDigit_failed (e : Nat) (ovf : Bool) (s : State) : (State.noteDigit e ovf s).failed = s.failed := rfl
@[simp] theorem State.noteDigit_skipped (e : Nat) (ovf : Bool) (s : State) : (State.noteDigit e ovf s).skipped = s.skipped := rfl
@[simp] theorem State.noteDigit_phase (e : Nat) (ovf : Bool) (s : State) : (State.noteDigit e ovf s).phase = s.phase := rfl
@[simp] theorem State.noteDigit_cause (e : Nat) (ovf : Bool) (s : State) : (State.noteDigit e ovf s).cause = s.cause := rfl
@[simp] theorem State.noteDigit_seen (e : Nat) (ovf : Bool) (s : State) : (State.noteDigit e ovf s).seen = s.seen := rfl
@[simp] theorem State.noteDigit_hasDig (e : Nat) (ovf : Bool) (s : State) : (State.noteDigit e ovf s).hasDig = true := rfl
@[simp] theorem State.noteDigit_badCh (e : Nat) (ovf : Bool) (s : State) : (State.noteDigit e ovf s).badCh = s.badCh := rfl
@[simp] theorem State.noteDigit_expOvf (e : Nat) (ovf : Bool) (s : State) : (State.noteDigit e ovf s).expOvf = ovf := rfl
@[simp] theorem State.noteDigit_dirty (e : Nat) (ovf : Bool) (s : State) : (State.noteDigit e ovf s).dirty = s.dirty := rfl
@[simp] theorem State.noteDigit_shr (e : Nat) (ovf : Bool) (s : State) : (State.noteDigit e ovf s).shr = s.shr := rfl
@[simp] theorem State.noteDigit_bitCnt (e : Nat) (ovf : Bool) (s : State) : (State.noteDigit e ovf s).bitCnt = s.bitCnt := rfl
@[simp] theorem State.noteDigit_busy (e : Nat) (ovf : Bool) (s : State) : (State.noteDigit e ovf s).busy = s.busy := rfl
@[simp] theorem State.noteDigit_output (e : Nat) (ovf : Bool) (s : State) : (State.noteDigit e ovf s).output = s.output := rfl
@[simp] theorem State.noteDigit_input (e : Nat) (ovf : Bool) (s : State) : (State.noteDigit e ovf s).input = s.input := rfl

/-! ## noteOther -/

@[simp] theorem State.noteOther_params (s : State) : (s.noteOther).params = s.params := rfl
@[simp] theorem State.noteOther_acc (s : State) : (s.noteOther).acc = s.acc := rfl
@[simp] theorem State.noteOther_snap (s : State) : (s.noteOther).snap = s.snap := rfl
@[simp] theorem State.noteOther_exp (s : State) : (s.noteOther).exp = s.exp := rfl
@[simp] theorem State.noteOther_lineIdx (s : State) : (s.noteOther).lineIdx = s.lineIdx := rfl
@[simp] theorem State.noteOther_checked (s : State) : (s.noteOther).checked = s.checked := rfl
@[simp] theorem State.noteOther_failed (s : State) : (s.noteOther).failed = s.failed := rfl
@[simp] theorem State.noteOther_skipped (s : State) : (s.noteOther).skipped = s.skipped := rfl
@[simp] theorem State.noteOther_phase (s : State) : (s.noteOther).phase = s.phase := rfl
@[simp] theorem State.noteOther_cause (s : State) : (s.noteOther).cause = s.cause := rfl
@[simp] theorem State.noteOther_seen (s : State) : (s.noteOther).seen = s.seen := rfl
@[simp] theorem State.noteOther_hasDig (s : State) : (s.noteOther).hasDig = s.hasDig := rfl
@[simp] theorem State.noteOther_badCh (s : State) : (s.noteOther).badCh = true := rfl
@[simp] theorem State.noteOther_expOvf (s : State) : (s.noteOther).expOvf = s.expOvf := rfl
@[simp] theorem State.noteOther_dirty (s : State) : (s.noteOther).dirty = s.dirty := rfl
@[simp] theorem State.noteOther_shr (s : State) : (s.noteOther).shr = s.shr := rfl
@[simp] theorem State.noteOther_bitCnt (s : State) : (s.noteOther).bitCnt = s.bitCnt := rfl
@[simp] theorem State.noteOther_busy (s : State) : (s.noteOther).busy = s.busy := rfl
@[simp] theorem State.noteOther_output (s : State) : (s.noteOther).output = s.output := rfl
@[simp] theorem State.noteOther_input (s : State) : (s.noteOther).input = s.input := rfl

/-! ## markDirty -/

@[simp] theorem State.markDirty_params (s : State) : (s.markDirty).params = s.params := rfl
@[simp] theorem State.markDirty_acc (s : State) : (s.markDirty).acc = s.acc := rfl
@[simp] theorem State.markDirty_snap (s : State) : (s.markDirty).snap = s.snap := rfl
@[simp] theorem State.markDirty_exp (s : State) : (s.markDirty).exp = s.exp := rfl
@[simp] theorem State.markDirty_lineIdx (s : State) : (s.markDirty).lineIdx = s.lineIdx := rfl
@[simp] theorem State.markDirty_checked (s : State) : (s.markDirty).checked = s.checked := rfl
@[simp] theorem State.markDirty_failed (s : State) : (s.markDirty).failed = s.failed := rfl
@[simp] theorem State.markDirty_skipped (s : State) : (s.markDirty).skipped = s.skipped := rfl
@[simp] theorem State.markDirty_phase (s : State) : (s.markDirty).phase = s.phase := rfl
@[simp] theorem State.markDirty_cause (s : State) : (s.markDirty).cause = s.cause := rfl
@[simp] theorem State.markDirty_seen (s : State) : (s.markDirty).seen = s.seen := rfl
@[simp] theorem State.markDirty_hasDig (s : State) : (s.markDirty).hasDig = s.hasDig := rfl
@[simp] theorem State.markDirty_badCh (s : State) : (s.markDirty).badCh = s.badCh := rfl
@[simp] theorem State.markDirty_expOvf (s : State) : (s.markDirty).expOvf = s.expOvf := rfl
@[simp] theorem State.markDirty_dirty (s : State) : (s.markDirty).dirty = true := rfl
@[simp] theorem State.markDirty_shr (s : State) : (s.markDirty).shr = s.shr := rfl
@[simp] theorem State.markDirty_bitCnt (s : State) : (s.markDirty).bitCnt = s.bitCnt := rfl
@[simp] theorem State.markDirty_busy (s : State) : (s.markDirty).busy = s.busy := rfl
@[simp] theorem State.markDirty_output (s : State) : (s.markDirty).output = s.output := rfl
@[simp] theorem State.markDirty_input (s : State) : (s.markDirty).input = s.input := rfl

/-! ## loadEngine -/

@[simp] theorem State.loadEngine_params (d : Byte) (s : State) : (State.loadEngine d s).params = s.params := rfl
@[simp] theorem State.loadEngine_acc (d : Byte) (s : State) : (State.loadEngine d s).acc = s.acc := rfl
@[simp] theorem State.loadEngine_snap (d : Byte) (s : State) : (State.loadEngine d s).snap = s.snap := rfl
@[simp] theorem State.loadEngine_exp (d : Byte) (s : State) : (State.loadEngine d s).exp = s.exp := rfl
@[simp] theorem State.loadEngine_lineIdx (d : Byte) (s : State) : (State.loadEngine d s).lineIdx = s.lineIdx := rfl
@[simp] theorem State.loadEngine_checked (d : Byte) (s : State) : (State.loadEngine d s).checked = s.checked := rfl
@[simp] theorem State.loadEngine_failed (d : Byte) (s : State) : (State.loadEngine d s).failed = s.failed := rfl
@[simp] theorem State.loadEngine_skipped (d : Byte) (s : State) : (State.loadEngine d s).skipped = s.skipped := rfl
@[simp] theorem State.loadEngine_phase (d : Byte) (s : State) : (State.loadEngine d s).phase = s.phase := rfl
@[simp] theorem State.loadEngine_cause (d : Byte) (s : State) : (State.loadEngine d s).cause = s.cause := rfl
@[simp] theorem State.loadEngine_seen (d : Byte) (s : State) : (State.loadEngine d s).seen = s.seen := rfl
@[simp] theorem State.loadEngine_hasDig (d : Byte) (s : State) : (State.loadEngine d s).hasDig = s.hasDig := rfl
@[simp] theorem State.loadEngine_badCh (d : Byte) (s : State) : (State.loadEngine d s).badCh = s.badCh := rfl
@[simp] theorem State.loadEngine_expOvf (d : Byte) (s : State) : (State.loadEngine d s).expOvf = s.expOvf := rfl
@[simp] theorem State.loadEngine_dirty (d : Byte) (s : State) : (State.loadEngine d s).dirty = s.dirty := rfl
@[simp] theorem State.loadEngine_shr (d : Byte) (s : State) : (State.loadEngine d s).shr = d := rfl
@[simp] theorem State.loadEngine_bitCnt (d : Byte) (s : State) : (State.loadEngine d s).bitCnt = 0 := rfl
@[simp] theorem State.loadEngine_busy (d : Byte) (s : State) : (State.loadEngine d s).busy = true := rfl
@[simp] theorem State.loadEngine_output (d : Byte) (s : State) : (State.loadEngine d s).output = s.output := rfl
@[simp] theorem State.loadEngine_input (d : Byte) (s : State) : (State.loadEngine d s).input = s.input := rfl

/-! ## withInput -/

@[simp] theorem State.withInput_params (rest : List PortInput) (s : State) : (State.withInput rest s).params = s.params := rfl
@[simp] theorem State.withInput_acc (rest : List PortInput) (s : State) : (State.withInput rest s).acc = s.acc := rfl
@[simp] theorem State.withInput_snap (rest : List PortInput) (s : State) : (State.withInput rest s).snap = s.snap := rfl
@[simp] theorem State.withInput_exp (rest : List PortInput) (s : State) : (State.withInput rest s).exp = s.exp := rfl
@[simp] theorem State.withInput_lineIdx (rest : List PortInput) (s : State) : (State.withInput rest s).lineIdx = s.lineIdx := rfl
@[simp] theorem State.withInput_checked (rest : List PortInput) (s : State) : (State.withInput rest s).checked = s.checked := rfl
@[simp] theorem State.withInput_failed (rest : List PortInput) (s : State) : (State.withInput rest s).failed = s.failed := rfl
@[simp] theorem State.withInput_skipped (rest : List PortInput) (s : State) : (State.withInput rest s).skipped = s.skipped := rfl
@[simp] theorem State.withInput_phase (rest : List PortInput) (s : State) : (State.withInput rest s).phase = s.phase := rfl
@[simp] theorem State.withInput_cause (rest : List PortInput) (s : State) : (State.withInput rest s).cause = s.cause := rfl
@[simp] theorem State.withInput_seen (rest : List PortInput) (s : State) : (State.withInput rest s).seen = s.seen := rfl
@[simp] theorem State.withInput_hasDig (rest : List PortInput) (s : State) : (State.withInput rest s).hasDig = s.hasDig := rfl
@[simp] theorem State.withInput_badCh (rest : List PortInput) (s : State) : (State.withInput rest s).badCh = s.badCh := rfl
@[simp] theorem State.withInput_expOvf (rest : List PortInput) (s : State) : (State.withInput rest s).expOvf = s.expOvf := rfl
@[simp] theorem State.withInput_dirty (rest : List PortInput) (s : State) : (State.withInput rest s).dirty = s.dirty := rfl
@[simp] theorem State.withInput_shr (rest : List PortInput) (s : State) : (State.withInput rest s).shr = s.shr := rfl
@[simp] theorem State.withInput_bitCnt (rest : List PortInput) (s : State) : (State.withInput rest s).bitCnt = s.bitCnt := rfl
@[simp] theorem State.withInput_busy (rest : List PortInput) (s : State) : (State.withInput rest s).busy = s.busy := rfl
@[simp] theorem State.withInput_output (rest : List PortInput) (s : State) : (State.withInput rest s).output = s.output := rfl
@[simp] theorem State.withInput_input (rest : List PortInput) (s : State) : (State.withInput rest s).input = rest := rfl

@[simp] theorem State.ignoreCommand_eq (s : State) : s.ignoreCommand = s := rfl

end Sys2Proof.Machine
end

