-- ==== Sys2Proof/Laws/Engine.lean ====
section
/-!
SUPPORT. The Checksum Engine: its pure functions one step at a time, what one tick of the hidden registers can do, and
its frame (40_crc_engine.md R70 to R72, R80, R82).
-/

namespace Sys2Proof.Machine

/-! ## The pure functions -/

theorem bitSteps_zero (acc b : Byte) : bitSteps 0 acc b = (acc, b) := rfl

theorem bitSteps_succ (n : Nat) (acc b : Byte) :
    bitSteps (n + 1) acc b = bitSteps n (bitStep acc b).1 (bitStep acc b).2 := rfl

/-- The last bit step taken off instead of the first. -/
theorem bitSteps_succ_last (n : Nat) (acc b : Byte) :
    bitSteps (n + 1) acc b = bitStep (bitSteps n acc b).1 (bitSteps n acc b).2 := by
  induction n generalizing acc b with
  | zero => rfl
  | succ n ih => rw [bitSteps_succ, ih]; rfl

/-- The byte shifts right by one place per bit step. -/
theorem bitSteps_snd (n : Nat) (acc b : Byte) : (bitSteps n acc b).2 = b >>> n := by
  induction n generalizing acc b with
  | zero => simp [bitSteps]
  | succ n ih => rw [bitSteps_succ, ih, bitStep, ← BitVec.shiftRight_add, Nat.add_comm]

@[simp] theorem compute_nil : compute [] = 0x00 := rfl

/-- The append law (R80). -/
theorem compute_append (p q : List Byte) : compute (p ++ q) = q.foldl byteStep (compute p) :=
  List.foldl_append

theorem compute_concat (p : List Byte) (b : Byte) : compute (p ++ [b]) = byteStep (compute p) b :=
  compute_append p [b]

/-! ## One tick -/

/-- Everything a tick can do: a bit step, with BITCNT and BUSY as R82 has them, or no bit step where BITCNT is past
eight. -/
theorem State.engineTick_eq (s : State) :
    s.engineTick =
      { s with
        acc := if s.bitCnt < 8 then (bitStep s.acc s.shr).1 else s.acc,
        shr := if s.bitCnt < 8 then (bitStep s.acc s.shr).2 else s.shr,
        bitCnt := if s.bitCnt < 7 then s.bitCnt + 1 else 0,
        busy := if s.bitCnt < 7 then s.busy else false } := by
  by_cases h7 : s.bitCnt < 7
  · have h8 : s.bitCnt < 8 := by bv_omega
    have hn : s.bitCnt + 1 < 8 := by bv_omega
    simp only [State.engineTick, State.engineSettle, if_pos h8, if_pos hn, if_pos h7]
  · by_cases h8 : s.bitCnt < 8
    · have hn : ¬ s.bitCnt + 1 < 8 := by bv_omega
      simp only [State.engineTick, State.engineSettle, if_pos h8, if_neg hn, if_neg h7]
    · simp only [State.engineTick, State.engineSettle, if_neg h8, if_neg h7]

@[simp] theorem State.runEngine_zero (s : State) : State.runEngine 0 s = s := rfl

theorem State.runEngine_succ (n : Nat) (s : State) :
    State.runEngine (n + 1) s = if s.busy then State.runEngine n s.engineTick else s := rfl

/-- An engine at rest stays at rest. -/
theorem State.runEngine_of_rest (n : Nat) (s : State) (h : s.busy = false) : State.runEngine n s = s := by
  cases n <;> simp [State.runEngine, h]

@[simp] theorem State.finishByte_of_rest (s : State) (h : s.busy = false) : s.finishByte = s :=
  State.runEngine_of_rest 8 s h

/-- Running the engine in two goes is running it in one. -/
theorem State.runEngine_add (n m : Nat) (s : State) :
    State.runEngine (n + m) s = State.runEngine m (State.runEngine n s) := by
  induction n generalizing s with
  | zero => rw [Nat.zero_add]; rfl
  | succ n ih =>
    rw [Nat.add_right_comm, State.runEngine_succ, State.runEngine_succ]
    cases h : s.busy
    · simp [State.runEngine_of_rest, h]
    · simp [ih]

/-- As many bit steps as BITCNT leaves undone bring BUSY to 0. -/
theorem State.runEngine_busy (n : Nat) (s : State) (hn : 8 ≤ s.bitCnt.toNat + n) (h : 0 < n) :
    (State.runEngine n s).busy = false := by
  induction n generalizing s with
  | zero => omega
  | succ n ih =>
    rw [State.runEngine_succ]
    cases hb : s.busy
    · simpa using hb
    · rw [if_pos rfl]
      by_cases h7 : s.bitCnt < 7
      · refine ih _ ?_ (by have := BitVec.lt_def.mp h7; simp at this; omega)
        have hc : s.engineTick.bitCnt = s.bitCnt + 1 := by rw [State.engineTick_eq]; exact if_pos h7
        rw [hc]
        bv_omega
      · have hr : s.engineTick.busy = false := by rw [State.engineTick_eq]; exact if_neg h7
        rw [State.runEngine_of_rest n _ hr, hr]

/-- The engine always comes to rest. -/
theorem State.finishByte_busy (s : State) : s.finishByte.busy = false :=
  State.runEngine_busy 8 s (by omega) (by omega)

/-- At whatever pace the bit steps are done, the byte ends the same. -/
theorem State.finishByte_runEngine (n : Nat) (s : State) : (State.runEngine n s).finishByte = s.finishByte := by
  have h : State.runEngine (n + 8) s = State.runEngine (8 + n) s := by rw [Nat.add_comm]
  rw [State.runEngine_add, State.runEngine_add] at h
  exact h.trans (State.runEngine_of_rest n _ s.finishByte_busy)

/-! ## The frame: the engine moves ACC, SHR, BITCNT and BUSY alone -/

/-- The registers the engine never moves, as one record with its own four blanked. -/
def State.outsideEngine (s : State) : State := { s with acc := 0, shr := 0, bitCnt := 0, busy := false }

theorem State.engineTick_outside (s : State) : s.engineTick.outsideEngine = s.outsideEngine := by
  rw [State.engineTick_eq]; rfl

theorem State.runEngine_outside (n : Nat) (s : State) : (State.runEngine n s).outsideEngine = s.outsideEngine := by
  induction n generalizing s with
  | zero => rfl
  | succ n ih =>
    rw [State.runEngine_succ]
    split
    · rw [ih, State.engineTick_outside]
    · rfl

theorem State.finishByte_outside (s : State) : s.finishByte.outsideEngine = s.outsideEngine :=
  State.runEngine_outside 8 s

@[simp] theorem State.engineTick_params (s : State) : s.engineTick.params = s.params :=
  (congrArg (fun x : State => x.params) (State.engineTick_outside s) :)

@[simp] theorem State.engineTick_snap (s : State) : s.engineTick.snap = s.snap :=
  (congrArg (fun x : State => x.snap) (State.engineTick_outside s) :)

@[simp] theorem State.engineTick_exp (s : State) : s.engineTick.exp = s.exp :=
  (congrArg (fun x : State => x.exp) (State.engineTick_outside s) :)

@[simp] theorem State.engineTick_lineIdx (s : State) : s.engineTick.lineIdx = s.lineIdx :=
  (congrArg (fun x : State => x.lineIdx) (State.engineTick_outside s) :)

@[simp] theorem State.engineTick_checked (s : State) : s.engineTick.checked = s.checked :=
  (congrArg (fun x : State => x.checked) (State.engineTick_outside s) :)

@[simp] theorem State.engineTick_failed (s : State) : s.engineTick.failed = s.failed :=
  (congrArg (fun x : State => x.failed) (State.engineTick_outside s) :)

@[simp] theorem State.engineTick_skipped (s : State) : s.engineTick.skipped = s.skipped :=
  (congrArg (fun x : State => x.skipped) (State.engineTick_outside s) :)

@[simp] theorem State.engineTick_phase (s : State) : s.engineTick.phase = s.phase :=
  (congrArg (fun x : State => x.phase) (State.engineTick_outside s) :)

@[simp] theorem State.engineTick_cause (s : State) : s.engineTick.cause = s.cause :=
  (congrArg (fun x : State => x.cause) (State.engineTick_outside s) :)

@[simp] theorem State.engineTick_seen (s : State) : s.engineTick.seen = s.seen :=
  (congrArg (fun x : State => x.seen) (State.engineTick_outside s) :)

@[simp] theorem State.engineTick_hasDig (s : State) : s.engineTick.hasDig = s.hasDig :=
  (congrArg (fun x : State => x.hasDig) (State.engineTick_outside s) :)

@[simp] theorem State.engineTick_badCh (s : State) : s.engineTick.badCh = s.badCh :=
  (congrArg (fun x : State => x.badCh) (State.engineTick_outside s) :)

@[simp] theorem State.engineTick_expOvf (s : State) : s.engineTick.expOvf = s.expOvf :=
  (congrArg (fun x : State => x.expOvf) (State.engineTick_outside s) :)

@[simp] theorem State.engineTick_dirty (s : State) : s.engineTick.dirty = s.dirty :=
  (congrArg (fun x : State => x.dirty) (State.engineTick_outside s) :)

@[simp] theorem State.engineTick_output (s : State) : s.engineTick.output = s.output :=
  (congrArg (fun x : State => x.output) (State.engineTick_outside s) :)

@[simp] theorem State.engineTick_input (s : State) : s.engineTick.input = s.input :=
  (congrArg (fun x : State => x.input) (State.engineTick_outside s) :)

@[simp] theorem State.finishByte_params (s : State) : s.finishByte.params = s.params :=
  (congrArg (fun x : State => x.params) (State.finishByte_outside s) :)

@[simp] theorem State.finishByte_snap (s : State) : s.finishByte.snap = s.snap :=
  (congrArg (fun x : State => x.snap) (State.finishByte_outside s) :)

@[simp] theorem State.finishByte_exp (s : State) : s.finishByte.exp = s.exp :=
  (congrArg (fun x : State => x.exp) (State.finishByte_outside s) :)

@[simp] theorem State.finishByte_lineIdx (s : State) : s.finishByte.lineIdx = s.lineIdx :=
  (congrArg (fun x : State => x.lineIdx) (State.finishByte_outside s) :)

@[simp] theorem State.finishByte_checked (s : State) : s.finishByte.checked = s.checked :=
  (congrArg (fun x : State => x.checked) (State.finishByte_outside s) :)

@[simp] theorem State.finishByte_failed (s : State) : s.finishByte.failed = s.failed :=
  (congrArg (fun x : State => x.failed) (State.finishByte_outside s) :)

@[simp] theorem State.finishByte_skipped (s : State) : s.finishByte.skipped = s.skipped :=
  (congrArg (fun x : State => x.skipped) (State.finishByte_outside s) :)

@[simp] theorem State.finishByte_phase (s : State) : s.finishByte.phase = s.phase :=
  (congrArg (fun x : State => x.phase) (State.finishByte_outside s) :)

@[simp] theorem State.finishByte_cause (s : State) : s.finishByte.cause = s.cause :=
  (congrArg (fun x : State => x.cause) (State.finishByte_outside s) :)

@[simp] theorem State.finishByte_seen (s : State) : s.finishByte.seen = s.seen :=
  (congrArg (fun x : State => x.seen) (State.finishByte_outside s) :)

@[simp] theorem State.finishByte_hasDig (s : State) : s.finishByte.hasDig = s.hasDig :=
  (congrArg (fun x : State => x.hasDig) (State.finishByte_outside s) :)

@[simp] theorem State.finishByte_badCh (s : State) : s.finishByte.badCh = s.badCh :=
  (congrArg (fun x : State => x.badCh) (State.finishByte_outside s) :)

@[simp] theorem State.finishByte_expOvf (s : State) : s.finishByte.expOvf = s.expOvf :=
  (congrArg (fun x : State => x.expOvf) (State.finishByte_outside s) :)

@[simp] theorem State.finishByte_dirty (s : State) : s.finishByte.dirty = s.dirty :=
  (congrArg (fun x : State => x.dirty) (State.finishByte_outside s) :)

@[simp] theorem State.finishByte_output (s : State) : s.finishByte.output = s.output :=
  (congrArg (fun x : State => x.output) (State.finishByte_outside s) :)

@[simp] theorem State.finishByte_input (s : State) : s.finishByte.input = s.input :=
  (congrArg (fun x : State => x.input) (State.finishByte_outside s) :)

end Sys2Proof.Machine
end

