-- ==== Sys2Proof/Laws/LineCommands.lean ====
section
/-!
SUPPORT. What the shared operations of CHAR and EOL can do: the classes of a byte, the scan of a byte, the order of the
tests of EOL, and the two ways a malformed line ends (30_encoding.md R55; 41_line_commands.md R93, R94, R97).
-/

namespace Sys2Proof.Machine

/-! ## The operand byte -/

theorem isDigit_iff (d : Byte) : isDigit d = true ↔ 0x30 ≤ d.toNat ∧ d.toNat ≤ 0x39 := by
  simp [isDigit, digitLo, digitHi]

/-- The delimiter is no digit. -/
theorem isDigit_delim : isDigit delim = false := by decide

theorem byteClass_delim : byteClass delim = .delim := by decide

theorem byteClass_of_digit (d : Byte) (h : isDigit d = true) : byteClass d = .digit := by
  have hd : d ≠ delim := by rintro rfl; simp [isDigit_delim] at h
  simp [byteClass, hd, h]

theorem byteClass_of_other (d : Byte) (hd : d ≠ delim) (h : isDigit d = false) : byteClass d = .other := by
  simp [byteClass, hd, h]

/-- Every byte is a delimiter, a digit or neither, and no two of these (R55). -/
theorem byteClass_cases (d : Byte) :
    d = delim ∧ byteClass d = .delim ∨ d ≠ delim ∧ isDigit d = true ∧ byteClass d = .digit ∨
      d ≠ delim ∧ isDigit d = false ∧ byteClass d = .other := by
  by_cases hd : d = delim
  · exact .inl ⟨hd, hd ▸ byteClass_delim⟩
  · cases h : isDigit d
    · exact .inr (.inr ⟨hd, rfl, byteClass_of_other d hd h⟩)
    · exact .inr (.inl ⟨hd, rfl, byteClass_of_digit d h⟩)

theorem accumulateDigit_le (p : Params) (e : Nat) (d : Byte) : accumulateDigit p e d ≤ p.expMax :=
  Nat.min_le_right _ _

theorem overflowAfter_iff (p : Params) (ovf : Bool) (e : Nat) (d : Byte) :
    overflowAfter p ovf e d = true ↔ ovf = true ∨ p.expMax < appendDigit e d := by
  simp [overflowAfter]

/-! ## The scan of a byte -/

theorem State.scanByte_delim (s : State) : s.scanByte delim = s.noteDelimiter := by
  simp [State.scanByte, byteClass_delim]

theorem State.scanByte_digit (s : State) (d : Byte) (h : isDigit d = true) :
    s.scanByte d =
      if s.seen then s.noteDigit (accumulateDigit s.params s.exp d) (overflowAfter s.params s.expOvf s.exp d)
      else s := by
  simp [State.scanByte, byteClass_of_digit d h]

theorem State.scanByte_other (s : State) (d : Byte) (hd : d ≠ delim) (h : isDigit d = false) :
    s.scanByte d = if s.seen then s.noteOther else s := by
  simp [State.scanByte, byteClass_of_other d hd h]

/-- Everything the scan of a byte can do. -/
theorem State.scanByte_cases (s : State) (d : Byte) :
    d = delim ∧ s.scanByte d = s.noteDelimiter ∨
    isDigit d = true ∧ s.seen = true ∧
      s.scanByte d = s.noteDigit (accumulateDigit s.params s.exp d) (overflowAfter s.params s.expOvf s.exp d) ∨
    d ≠ delim ∧ isDigit d = false ∧ s.seen = true ∧ s.scanByte d = s.noteOther ∨
    d ≠ delim ∧ s.seen = false ∧ s.scanByte d = s := by
  obtain ⟨rfl, -⟩ | ⟨hd, h, -⟩ | ⟨hd, h, -⟩ := byteClass_cases d
  · exact .inl ⟨rfl, s.scanByte_delim⟩
  · cases hs : s.seen
    · exact .inr (.inr (.inr ⟨hd, rfl, by simp [s.scanByte_digit d h, hs]⟩))
    · exact .inr (.inl ⟨h, rfl, by simp [s.scanByte_digit d h, hs]⟩)
  · cases hs : s.seen
    · exact .inr (.inr (.inr ⟨hd, rfl, by simp [s.scanByte_other d hd h, hs]⟩))
    · exact .inr (.inr (.inl ⟨hd, h, rfl, by simp [s.scanByte_other d hd h, hs]⟩))

@[simp] theorem State.scanByte_params (s : State) (d : Byte) : (s.scanByte d).params = s.params := by
  obtain ⟨-, h⟩ | ⟨-, -, h⟩ | ⟨-, -, -, h⟩ | ⟨-, -, h⟩ := s.scanByte_cases d <;> simp [h]

@[simp] theorem State.scanByte_acc (s : State) (d : Byte) : (s.scanByte d).acc = s.acc := by
  obtain ⟨-, h⟩ | ⟨-, -, h⟩ | ⟨-, -, -, h⟩ | ⟨-, -, h⟩ := s.scanByte_cases d <;> simp [h]

@[simp] theorem State.scanByte_lineIdx (s : State) (d : Byte) : (s.scanByte d).lineIdx = s.lineIdx := by
  obtain ⟨-, h⟩ | ⟨-, -, h⟩ | ⟨-, -, -, h⟩ | ⟨-, -, h⟩ := s.scanByte_cases d <;> simp [h]

@[simp] theorem State.scanByte_checked (s : State) (d : Byte) : (s.scanByte d).checked = s.checked := by
  obtain ⟨-, h⟩ | ⟨-, -, h⟩ | ⟨-, -, -, h⟩ | ⟨-, -, h⟩ := s.scanByte_cases d <;> simp [h]

@[simp] theorem State.scanByte_failed (s : State) (d : Byte) : (s.scanByte d).failed = s.failed := by
  obtain ⟨-, h⟩ | ⟨-, -, h⟩ | ⟨-, -, -, h⟩ | ⟨-, -, h⟩ := s.scanByte_cases d <;> simp [h]

@[simp] theorem State.scanByte_skipped (s : State) (d : Byte) : (s.scanByte d).skipped = s.skipped := by
  obtain ⟨-, h⟩ | ⟨-, -, h⟩ | ⟨-, -, -, h⟩ | ⟨-, -, h⟩ := s.scanByte_cases d <;> simp [h]

@[simp] theorem State.scanByte_phase (s : State) (d : Byte) : (s.scanByte d).phase = s.phase := by
  obtain ⟨-, h⟩ | ⟨-, -, h⟩ | ⟨-, -, -, h⟩ | ⟨-, -, h⟩ := s.scanByte_cases d <;> simp [h]

@[simp] theorem State.scanByte_cause (s : State) (d : Byte) : (s.scanByte d).cause = s.cause := by
  obtain ⟨-, h⟩ | ⟨-, -, h⟩ | ⟨-, -, -, h⟩ | ⟨-, -, h⟩ := s.scanByte_cases d <;> simp [h]

@[simp] theorem State.scanByte_dirty (s : State) (d : Byte) : (s.scanByte d).dirty = s.dirty := by
  obtain ⟨-, h⟩ | ⟨-, -, h⟩ | ⟨-, -, -, h⟩ | ⟨-, -, h⟩ := s.scanByte_cases d <;> simp [h]

@[simp] theorem State.scanByte_shr (s : State) (d : Byte) : (s.scanByte d).shr = s.shr := by
  obtain ⟨-, h⟩ | ⟨-, -, h⟩ | ⟨-, -, -, h⟩ | ⟨-, -, h⟩ := s.scanByte_cases d <;> simp [h]

@[simp] theorem State.scanByte_bitCnt (s : State) (d : Byte) : (s.scanByte d).bitCnt = s.bitCnt := by
  obtain ⟨-, h⟩ | ⟨-, -, h⟩ | ⟨-, -, -, h⟩ | ⟨-, -, h⟩ := s.scanByte_cases d <;> simp [h]

@[simp] theorem State.scanByte_busy (s : State) (d : Byte) : (s.scanByte d).busy = s.busy := by
  obtain ⟨-, h⟩ | ⟨-, -, h⟩ | ⟨-, -, -, h⟩ | ⟨-, -, h⟩ := s.scanByte_cases d <;> simp [h]

@[simp] theorem State.scanByte_output (s : State) (d : Byte) : (s.scanByte d).output = s.output := by
  obtain ⟨-, h⟩ | ⟨-, -, h⟩ | ⟨-, -, -, h⟩ | ⟨-, -, h⟩ := s.scanByte_cases d <;> simp [h]

@[simp] theorem State.scanByte_input (s : State) (d : Byte) : (s.scanByte d).input = s.input := by
  obtain ⟨-, h⟩ | ⟨-, -, h⟩ | ⟨-, -, -, h⟩ | ⟨-, -, h⟩ := s.scanByte_cases d <;> simp [h]

/-! ## EOL -/

/-- The order of the tests of EOL (R94): each case with the tests that lead to it. -/
theorem State.eolCase_cases (s : State) :
    s.lineIdx = s.params.cntMax ∧ s.eolCase = .overflow ∨
    s.lineIdx ≠ s.params.cntMax ∧ s.lineIdx = 0 ∧ s.eolCase = .header ∨
    s.lineIdx ≠ s.params.cntMax ∧ s.lineIdx ≠ 0 ∧ s.seen = false ∧ s.eolCase = .noDelimiter ∨
    s.lineIdx ≠ s.params.cntMax ∧ s.lineIdx ≠ 0 ∧ s.seen = true ∧ (s.hasDig = false ∨ s.badCh = true) ∧
      s.eolCase = .badInteger ∨
    s.lineIdx ≠ s.params.cntMax ∧ s.lineIdx ≠ 0 ∧ s.seen = true ∧ s.hasDig = true ∧ s.badCh = false ∧
      s.eolCase = .wellFormed := by
  unfold State.eolCase State.lineIdxFull State.badTrailing
  by_cases hf : s.lineIdx = s.params.cntMax
  · simp [hf]
  · by_cases h0 : s.lineIdx = 0
    · have : ¬ 0 = s.params.cntMax := fun h => hf (h0.trans h)
      simp [h0, this]
    · cases hs : s.seen <;> cases hd : s.hasDig <;> cases hb : s.badCh <;> simp [hf, h0]

theorem State.malformedLine_skip (s : State) (c : Cause) (h : s.params.policy = .skip) :
    s.malformedLine c = (State.emit (.malformed s.lineIdx c) s).countSkipped.closeLine := by
  simp [State.malformedLine, h]

theorem State.malformedLine_fatal (s : State) (c : Cause) (h : s.params.policy = .fatal) :
    s.malformedLine c = State.raise c (State.emit (.malformed s.lineIdx c) s) := by
  simp [State.malformedLine, h]

theorem State.checksumDiffers_iff (s : State) : s.checksumDiffers = true ↔ s.exp ≠ s.snap.toNat := by
  simp [State.checksumDiffers]

/-- The comparison either leaves the state as it is or counts a failure and emits MISMATCH (R96, R125). -/
theorem State.judgeChecksum_cases (s : State) :
    s.exp = s.snap.toNat ∧ s.judgeChecksum = s ∨ s.exp ≠ s.snap.toNat ∧ s.judgeChecksum = s.reportMismatch := by
  by_cases h : s.exp = s.snap.toNat
  · exact .inl ⟨h, by simp [State.judgeChecksum, State.checksumDiffers, h]⟩
  · exact .inr ⟨h, by simp [State.judgeChecksum, State.checksumDiffers, h]⟩

/-- Everything EOL can do in phase RUN, guards included (R94 to R98). -/
theorem State.eolInRun_cases (s : State) :
    s.lineIdx = s.params.cntMax ∧ s.eolInRun = s.raise .counterOverflow ∨
    s.lineIdx ≠ s.params.cntMax ∧ s.lineIdx = 0 ∧ s.eolInRun = s.headerLine ∨
    s.lineIdx ≠ s.params.cntMax ∧ s.lineIdx ≠ 0 ∧ s.seen = false ∧
      s.eolInRun = s.malformedLine .malformedNoDelimiter ∨
    s.lineIdx ≠ s.params.cntMax ∧ s.lineIdx ≠ 0 ∧ s.seen = true ∧ (s.hasDig = false ∨ s.badCh = true) ∧
      s.eolInRun = s.malformedLine .malformedBadInteger ∨
    s.lineIdx ≠ s.params.cntMax ∧ s.lineIdx ≠ 0 ∧ s.seen = true ∧ s.hasDig = true ∧ s.badCh = false ∧
      s.eolInRun = s.dataLine := by
  unfold State.eolInRun
  obtain ⟨h, e⟩ | ⟨h, h0, e⟩ | ⟨h, h0, h1, e⟩ | ⟨h, h0, h1, h2, e⟩ | ⟨h, h0, h1, h2, h3, e⟩ := s.eolCase_cases <;> rw [e]
  · exact .inl ⟨h, rfl⟩
  · exact .inr (.inl ⟨h, h0, rfl⟩)
  · exact .inr (.inr (.inl ⟨h, h0, h1, rfl⟩))
  · exact .inr (.inr (.inr (.inl ⟨h, h0, h1, h2, rfl⟩)))
  · exact .inr (.inr (.inr (.inr ⟨h, h0, h1, h2, h3, rfl⟩)))

end Sys2Proof.Machine
end

