-- ==== Sys2Proof/Laws/PerInstr.lean ====
section
/-!
SUPPORT. One lemma per constructor of Instr: its words are those of its row of spec/opcode_table.json, match and mask
(30_encoding.md R51).
-/

namespace Sys2Proof.Laws.TableRow

/-- The `match` of an instruction's row. -/
def rowMatch : Instr → CmdWord
  | .start => 0x100
  | .char _ => 0x200
  | .eol => 0x300
  | .eos => 0x400
  | .abort => 0x500

/-- The `mask` of an instruction's row. -/
def rowMask : Instr → CmdWord
  | .start => 0x7FF
  | .char _ => 0x700
  | .eol => 0x7FF
  | .eos => 0x7FF
  | .abort => 0x7FF

/-- An instruction is well-formed, its word is matched by its row, and the operand byte stands in bits 7:0. -/
def Statement (i : Instr) : Prop :=
  i.wellFormed = true ∧ encode i &&& rowMask i = rowMatch i ∧ (encode i).setWidth 8 = i.toCommand.d

theorem start : Statement .start := ⟨rfl, rfl, rfl⟩

theorem char (d : Byte) : Statement (.char d) := by
  have h : ∀ d : Byte, (encode (.char d) &&& 0x700 = 0x200) ∧ (encode (.char d)).setWidth 8 = d := by decide
  exact ⟨rfl, h d⟩

theorem eol : Statement .eol := ⟨rfl, rfl, rfl⟩

theorem eos : Statement .eos := ⟨rfl, rfl, rfl⟩

theorem abort : Statement .abort := ⟨rfl, rfl, rfl⟩

end Sys2Proof.Laws.TableRow
end

