-- ==== Sys2Proof/Laws/Step.lean ====
section
/-!
SUPPORT. Everything a step can do: one case for each thing the block can find at its ports, and one for each effect of
an instruction. Later proofs cite these and do not unfold `step` or `exec`.
-/

namespace Sys2Proof.Machine

/-- What a step can do, guards included. -/
theorem step_cases {s t : State} (h : step s = .next t) :
    s.busy = true ∧ t = s.engineTick ∨
    s.busy = false ∧ s.input = [] ∧ t = s ∨
    (∃ rest, s.busy = false ∧ s.input = .reset :: rest ∧ t = (s.withInput rest).resetBlock) ∨
    (∃ w rest r, s.busy = false ∧ s.input = .command w :: rest ∧ decode w = .reserved r ∧
      t = (s.withInput rest).acceptReserved) ∨
    (∃ w rest i, s.busy = false ∧ s.input = .command w :: rest ∧ decode w = .instr i ∧
      exec i (s.withInput rest) = .next t) := by
  unfold step State.fetch at h
  cases hb : s.busy
  · rw [hb] at h
    cases hi : s.input with
    | nil => simp [hi] at h; exact .inr (.inl ⟨rfl, rfl, h.symm⟩)
    | cons x rest =>
      cases x with
      | reset => simp [hi] at h; exact .inr (.inr (.inl ⟨rest, rfl, rfl, h.symm⟩))
      | command w =>
        cases hw : decode w with
        | reserved r =>
          simp [hi, hw] at h
          exact .inr (.inr (.inr (.inl ⟨w, rest, r, rfl, rfl, hw, h.symm⟩)))
        | instr i =>
          simp [hi, hw] at h
          exact .inr (.inr (.inr (.inr ⟨w, rest, i, rfl, rfl, hw, h⟩)))
  · simp [hb] at h; exact .inl ⟨rfl, h.symm⟩

/-- What an instruction can do, guards included: a fault for a command out of place, nothing in FAULTED, or the effect
of its own rule. -/
theorem exec_cases {i : Instr} {s t : State} (h : exec i s = .next t) :
    t = s.raise .protocol ∧ s.phase ≠ .faulted ∨
    t = s ∧ s.phase = .faulted ∧ i ≠ .start ∨
    i = .start ∧ s.phase ≠ .run ∧ t = s.beginRun ∨
    (∃ d, i = .char d ∧ s.phase = .run ∧ t = s.charInRun d) ∨
    i = .eol ∧ s.phase = .run ∧ t = s.eolInRun ∨
    i = .eos ∧ s.phase = .run ∧ s.dirty = false ∧
      t = State.endRun (State.emit (.summary s.checked s.failed s.skipped) s) ∨
    i = .abort ∧ (s.phase = .idle ∨ s.phase = .run) ∧ t = s.raise .resourceAccess := by
  cases i <;> cases hp : s.phase <;>
    simp [exec, execStart, execChar, execEol, execEos, execAbort, State.eosInRun, hp] at h ⊢ <;>
    first
      | exact h.symm
      | exact .inr h.symm
      | (split at h <;> simp_all)

/-- What the acceptance of a reserved word can do. -/
theorem State.acceptReserved_cases (s : State) :
    s.phase ≠ .faulted ∧ s.acceptReserved = s.raise .illegalCommand ∨ s.phase = .faulted ∧ s.acceptReserved = s := by
  cases h : s.phase <;> simp [State.acceptReserved, h]

end Sys2Proof.Machine
end

