-- ==== Sys2Proof/Laws/Ports.lean ====
section
/-!
SUPPORT. Everything a clock edge can do at the ports, and what the acceptance of a word can do (70_reset_and_hazards.md
R150, R152, R155 to R157).
-/

namespace Sys2Proof.Machine

theorem PortState.cmdReady_iff (p : PortState) : p.cmdReady = true ↔ p.core.busy = false ∧ p.waiting = [] := by
  simp [PortState.cmdReady]

theorem PortState.evtValid_iff (p : PortState) : p.evtValid = true ↔ p.shown = true ∧ p.waiting ≠ [] := by
  simp [PortState.evtValid]

/-- No event stands on the port of a block that is ready for a command (R156). -/
theorem PortState.evtValid_of_cmdReady {p : PortState} (h : p.cmdReady = true) : p.evtValid = false := by
  simp [PortState.evtValid, ((PortState.cmdReady_iff p).1 h).2]

/-- What a clock edge can do, guards included. -/
theorem PortState.edge_cases {p q : PortState} {pins : Pins} (h : p.edge pins = .next q) :
    pins.rst = true ∧ q = p.resetEdge ∨
    (∃ t, pins.rst = false ∧ p.unstable pins = false ∧ p.cmdReady = true ∧ pins.cmdValid = true ∧
      p.core.acceptWord pins.cmd = .next t ∧ q = p.afterAccept pins t) ∨
    pins.rst = false ∧ p.cmdReady = true ∧ pins.cmdValid = false ∧ q = p.idleEdge ∨
    pins.rst = false ∧ p.unstable pins = false ∧ p.cmdReady = false ∧ q = p.busyEdge pins := by
  unfold PortState.edge at h
  cases hr : pins.rst <;> cases hu : p.unstable pins <;> cases hc : p.cmdReady <;> cases hv : pins.cmdValid <;>
    simp [hr, hu, hc, hv] at h ⊢
  · exact h.symm
  · exact h.symm
  · exact h.symm
  · cases ha : p.core.acceptWord pins.cmd with
    | next t => simp [ha] at h; exact ⟨t, rfl, h.symm⟩
    | fault r => simp [ha] at h
    | refused r => simp [ha] at h
  all_goals exact h.symm

/-- What the acceptance of a word can do: a CHAR in phase RUN leaves the engine at work; every other word does all that
the step on it does. -/
theorem State.acceptWord_cases {s t : State} {w : CmdWord} (h : s.acceptWord w = .next t) :
    (∃ d, decode w = .instr (.char d) ∧ s.phase = .run ∧ t = s.acceptChar d) ∨
    (∃ i, decode w = .instr i ∧ exec i s = .next t ∧ ∀ d, i = .char d → s.phase ≠ .run) ∨
    (∃ r, decode w = .reserved r ∧ t = s.acceptReserved) := by
  unfold State.acceptWord at h
  cases hw : decode w with
  | reserved r => simp [hw] at h; exact .inr (.inr ⟨r, rfl, h.symm⟩)
  | instr i =>
    cases i with
    | char d =>
      by_cases hp : s.phase = .run
      · simp [hw, hp] at h; exact .inl ⟨d, rfl, hp, h.symm⟩
      · simp [hw, hp] at h; exact .inr (.inl ⟨_, rfl, h, fun _ _ => hp⟩)
    | start => exact .inr (.inl ⟨_, rfl, by simpa [hw] using h, by simp⟩)
    | eol => exact .inr (.inl ⟨_, rfl, by simpa [hw] using h, by simp⟩)
    | eos => exact .inr (.inl ⟨_, rfl, by simpa [hw] using h, by simp⟩)
    | abort => exact .inr (.inl ⟨_, rfl, by simpa [hw] using h, by simp⟩)

end Sys2Proof.Machine
end

