-- ==== Sys2Proof/Laws/Runs.lean ====
section
/-!
SUPPORT. Runs of the machine word by word: no command reads or writes the host's stream, so a run over `w :: ws` is the
command of `w` and then the run over `ws` (20_memory.md R46).
-/

namespace Sys2Proof.Machine

/-! ## The commands do not see the stream -/

theorem State.withInput_withInput (s : State) (a b : List PortInput) : (s.withInput a).withInput b = s.withInput b := rfl

theorem State.withInput_self (s : State) : s.withInput s.input = s := rfl

theorem State.engineTick_withInput (s : State) (r : List PortInput) :
    (s.withInput r).engineTick = s.engineTick.withInput r := by
  rw [State.engineTick_eq, State.engineTick_eq]; rfl

theorem State.runEngine_withInput (n : Nat) (s : State) (r : List PortInput) :
    State.runEngine n (s.withInput r) = (State.runEngine n s).withInput r := by
  induction n generalizing s with
  | zero => rfl
  | succ n ih =>
    rw [State.runEngine_succ, State.runEngine_succ, State.engineTick_withInput, ih]
    cases h : s.busy <;> simp [h]

theorem State.scanByte_withInput (s : State) (d : Byte) (r : List PortInput) :
    (s.withInput r).scanByte d = (s.scanByte d).withInput r := by
  unfold State.scanByte
  cases byteClass d <;> cases h : s.seen <;> simp only [State.withInput_seen, h] <;> rfl

theorem State.charInRun_withInput (s : State) (d : Byte) (r : List PortInput) :
    (s.withInput r).charInRun d = (s.charInRun d).withInput r := by
  unfold State.charInRun State.acceptChar State.finishByte
  have h : State.loadEngine d ((s.scanByte d).withInput r).markDirty =
      (State.loadEngine d (s.scanByte d).markDirty).withInput r := rfl
  rw [State.scanByte_withInput, h, State.runEngine_withInput]

theorem State.malformedLine_withInput (s : State) (c : Cause) (r : List PortInput) :
    (s.withInput r).malformedLine c = (s.malformedLine c).withInput r := by
  unfold State.malformedLine
  cases h : s.params.policy <;> simp only [State.withInput_params, h] <;> rfl

theorem State.judgeChecksum_withInput (s : State) (r : List PortInput) :
    (s.withInput r).judgeChecksum = s.judgeChecksum.withInput r := by
  obtain ⟨h, e⟩ | ⟨h, e⟩ := s.judgeChecksum_cases <;> rw [e]
  · simp [State.judgeChecksum, State.checksumDiffers, h]
  · simp [State.judgeChecksum, State.checksumDiffers, h]; rfl

theorem State.dataLine_withInput (s : State) (r : List PortInput) :
    (s.withInput r).dataLine = s.dataLine.withInput r := by
  unfold State.dataLine
  have h : State.emit (.progress (s.withInput r).lineIdx) (s.withInput r) =
      (State.emit (.progress s.lineIdx) s).withInput r := rfl
  rw [h, State.judgeChecksum_withInput]; rfl

theorem State.eolInRun_withInput (s : State) (r : List PortInput) :
    (s.withInput r).eolInRun = s.eolInRun.withInput r := by
  have h : (s.withInput r).eolCase = s.eolCase := rfl
  unfold State.eolInRun
  rw [h]
  cases s.eolCase <;>
    simp only [State.malformedLine_withInput, State.dataLine_withInput] <;> rfl

theorem State.eosInRun_withInput (s : State) (r : List PortInput) :
    (s.withInput r).eosInRun = s.eosInRun.withInput r := by
  unfold State.eosInRun
  cases h : s.dirty <;> simp only [State.withInput_dirty, h] <;> rfl

theorem exec_withInput {i : Instr} {s t : State} (h : exec i s = .next t) (r : List PortInput) :
    exec i (s.withInput r) = .next (t.withInput r) := by
  cases i <;> cases hp : s.phase <;>
    simp only [exec, execStart, execChar, execEol, execEos, execAbort, State.withInput_phase, hp,
      State.eosInRun_withInput, State.charInRun_withInput, State.eolInRun_withInput, Host.Outcome.next.injEq] at h ⊢ <;>
    subst h <;> rfl

/-- The command's own effect leaves the stream alone. -/
theorem exec_input {i : Instr} {s t : State} (h : exec i s = .next t) : t.input = s.input := by
  have h' := exec_withInput h s.input
  rw [State.withInput_self, h] at h'
  injection h' with h'
  rw [h']; rfl

/-! ## One word at a time -/

theorem State.present_nil (s : State) : s.present [] = s := rfl

theorem State.afterWords_nil (s : State) : s.afterWords [] = .next s := rfl

theorem core_run_succ {n : Nat} {s t : State} (h : step s = .next t) : core.run (n + 1) s = core.run n t := by
  have h' : core.step s = .next t := h
  simp only [Host.Core.run, h']

/-- A run over a command and more words. -/
theorem State.afterWords_instr {s t : State} {w : CmdWord} {i : Instr} (ws : List CmdWord) (hb : s.busy = false)
    (hd : decode w = .instr i) (h : exec i s = .next t) : s.afterWords (w :: ws) = t.afterWords ws := by
  have hs : step (s.present (w :: ws)) = .next (t.present ws) := by
    have he := exec_withInput h (ws.map .command ++ s.input)
    have hin : t.present ws = t.withInput (ws.map .command ++ s.input) := by
      rw [State.present, exec_input h]
    rw [hin, ← he]
    simp only [step, State.fetch, State.present, State.withInput_busy, hb, State.withInput_input, List.map_cons,
      List.cons_append, hd]
    rfl
  exact core_run_succ hs

/-- A run over a reserved word and more words. -/
theorem State.afterWords_reserved {s : State} {w : CmdWord} {r : Reserved} (ws : List CmdWord) (hb : s.busy = false)
    (hd : decode w = .reserved r) : s.afterWords (w :: ws) = s.acceptReserved.afterWords ws := by
  have hs : step (s.present (w :: ws)) = .next (s.acceptReserved.present ws) := by
    simp only [step, State.fetch, State.present, State.withInput_busy, hb, State.withInput_input, List.map_cons,
      List.cons_append, hd]
    cases hp : s.phase <;> simp only [State.acceptReserved, State.withInput_phase, hp] <;> rfl
  exact core_run_succ hs

/-! ## The results of runs, one action at a time -/

/-- With no run open it does not matter where the last one began. -/
theorem State.eventsBefore_of_closed {s : State} (h : s.phase ≠ .run) (n : Nat) :
    s.eventsBefore n = s.output.length := by
  cases hp : s.phase <;> simp_all [State.eventsBefore]

theorem State.eventsBefore_of_run {s : State} (h : s.phase = .run) (n : Nat) : s.eventsBefore n = n := by
  simp [State.eventsBefore, h]

/-- The results do not depend on the stream that the state holds. -/
theorem State.resultsFrom_withInput (n : Nat) (actions r : List PortInput) (s : State) :
    State.resultsFrom n actions (s.withInput r) = State.resultsFrom n actions s := by
  induction actions generalizing n s r with
  | nil => rfl
  | cons a rest ih =>
    cases a with
    | reset => exact congrArg (s.ifRunOpen .abandoned ++ ·) (ih n r s.resetBlock)
    | command w => rfl

theorem State.resultsFrom_of_closed {s : State} (h : s.phase ≠ .run) (n m : Nat) (actions : List PortInput) :
    State.resultsFrom n actions s = State.resultsFrom m actions s := by
  induction actions generalizing s with
  | nil => rfl
  | cons a rest ih =>
    cases a with
    | reset => exact congrArg (s.ifRunOpen .abandoned ++ ·) (ih (s := s.resetBlock) (by simp))
    | command w => simp only [State.resultsFrom, State.eventsBefore_of_closed h]

/-- What a word that decodes to an instruction adds to the results. -/
theorem State.resultsFrom_instr {s t : State} {w : CmdWord} {i : Instr} (n : Nat) (rest : List PortInput)
    (hb : s.busy = false) (hd : decode w = .instr i) (h : exec i s = .next t) :
    State.resultsFrom n (.command w :: rest) s =
      (if s.endsRun w t then [t.reportRun (s.eventsBefore n)] else []) ++
        State.resultsFrom (s.eventsBefore n) rest t := by
  have hs : step (s.withInput [.command w]) = .next (t.withInput []) := by
    rw [← exec_withInput h []]
    simp only [step, State.fetch, State.withInput_busy, hb, State.withInput_input, hd]
    rfl
  simp only [State.resultsFrom, hs, State.resultsFrom_withInput]
  rfl

/-- What a reserved word adds to the results. -/
theorem State.resultsFrom_reserved {s : State} {w : CmdWord} {r : Reserved} (n : Nat) (rest : List PortInput)
    (hb : s.busy = false) (hd : decode w = .reserved r) :
    State.resultsFrom n (.command w :: rest) s =
      (if s.endsRun w s.acceptReserved then [s.acceptReserved.reportRun (s.eventsBefore n)] else []) ++
        State.resultsFrom (s.eventsBefore n) rest s.acceptReserved := by
  have hs : step (s.withInput [.command w]) = .next (s.acceptReserved.withInput []) := by
    simp only [step, State.fetch, State.withInput_busy, hb, State.withInput_input, hd]
    cases hp : s.phase <;> simp only [State.acceptReserved, State.withInput_phase, hp] <;> rfl
  simp only [State.resultsFrom, hs, State.resultsFrom_withInput]
  rfl

/-- A reset abandons the run that is open and adds nothing elsewhere. -/
theorem State.resultsFrom_reset (n : Nat) (rest : List PortInput) (s : State) :
    State.resultsFrom n (.reset :: rest) s =
      s.ifRunOpen .abandoned ++ State.resultsFrom n rest s.resetBlock := rfl

end Sys2Proof.Machine
end

