-- ==== Sys2Proof/Tests/Slice0.lean ====
section
/-!
SUPPORT. Tests of the model: ill-formed terms the checks refuse, words written out from the spec's encoding, engine
vectors, single steps with the results of 95_test_vectors.md, and for every statement with hypotheses a witness that
meets them together.
-/

namespace Sys2Proof.Tests

open Sys2Proof.Machine

/-! ## WellFormed: an ill-formed term for each check -/

theorem test_unassigned_opcode_is_refused :
    Command.operandLegal ⟨.reserved6, 0⟩ = true ∧ Command.wellFormed ⟨.reserved6, 0⟩ = false := by decide

theorem test_operand_of_plain_command_is_refused :
    Command.opcodeAssigned ⟨.eol, 1⟩ = true ∧ Command.wellFormed ⟨.eol, 1⟩ = false := by decide

theorem test_char_with_any_operand_is_accepted :
    Command.wellFormed ⟨.char, 0x00⟩ = true ∧ Command.wellFormed ⟨.char, 0xFF⟩ = true := by decide

/-! ## Decoding, from words written out by 30_encoding.md R50 and R51: `op` in bits 10:8, `d` in bits 7:0 -/

theorem test_decode_start : decode 0b001_00000000 = .instr .start := by decide

/-- The comma, `d = 0x2C` (95_test_vectors.md section 2.6). -/
theorem test_decode_char : decode 0b010_00101100 = .instr (.char 0x2C) := by decide

theorem test_decode_char_high_byte : decode 0b010_11111111 = .instr (.char 0xFF) := by decide

theorem test_decode_eol : decode 0b011_00000000 = .instr .eol := by decide

theorem test_decode_eos : decode 0b100_00000000 = .instr .eos := by decide

theorem test_decode_abort : decode 0b101_00000000 = .instr .abort := by decide

theorem test_decode_reserved_opcodes :
    decode 0b000_00000000 = .reserved (.opcode .reserved0) ∧
    decode 0b110_00000000 = .reserved (.opcode .reserved6) ∧
    decode 0b111_11111111 = .reserved (.opcode .reserved7) := by decide

theorem test_decode_reserved_operands :
    decode 0b001_00000001 = .reserved (.operand .start 0x01) ∧
    decode 0b101_10000000 = .reserved (.operand .abort 0x80) := by decide

theorem test_encode :
    encode .start = 0x100 ∧ encode (.char 0x31) = 0x231 ∧ encode .eol = 0x300 ∧ encode .eos = 0x400 ∧
    encode .abort = 0x500 := by decide

theorem test_decodeTableWord :
    decodeTableWord 16 0x231 = some (.char 0x31) ∧ decodeTableWord 16 0x301 = none ∧
    decodeTableWord 16 0x900 = none := by decide

/-! ## The engine: 95_test_vectors.md sections 2.1 to 2.4 -/

theorem test_bitStep :
    bitStep 0x00 0x01 = (0x8C, 0x00) ∧ bitStep 0x01 0x00 = (0x8C, 0x00) ∧ bitStep 0x01 0x01 = (0x00, 0x00) ∧
    bitStep 0xFF 0x00 = (0xF3, 0x00) ∧ bitStep 0xFF 0x01 = (0x7F, 0x00) ∧ bitStep 0x01 0xFE = (0x8C, 0x7F) ∧
    bitStep 0xAA 0x55 = (0xD9, 0x2A) ∧ bitStep 0x8C 0x18 = (0x46, 0x0C) := by decide

theorem test_byteStep :
    byteStep 0x00 0x31 = 0xE0 ∧ byteStep 0xE0 0x32 = 0xEB ∧ byteStep 0xEB 0x33 = 0x95 ∧ byteStep 0x00 0x80 = 0x8C ∧
    byteStep 0xFF 0x00 = 0x35 ∧ byteStep 0x3A 0x2C = 0x40 := by decide

/-- The eight entries of T at powers of two, which fix the table by linearity (section 2.3). -/
theorem test_crcTable :
    [0x01, 0x02, 0x04, 0x08, 0x10, 0x20, 0x40, 0x80].map crcTable =
      [0x5E, 0xBC, 0x61, 0xC2, 0x9D, 0x23, 0x46, 0x8C] := by decide

theorem test_compute :
    compute (asciiBytes ['1', '2', '3', '4', '5', '6', '7', '8', '9']) = 0xA1 ∧
    compute (asciiBytes ['x', ',', 'y']) = 0x22 ∧
    compute (asciiBytes ['1', '2', '.', '6', ',', '3', '.', '3', '0', ',', '2', '5']) = 0x73 ∧
    compute [0xFF, 0xFF] = 0xB4 := by decide +kernel

/-! ## The reference: 95_test_vectors.md section 2.8 -/

theorem test_validateLine_pass :
    validateLine (asciiBytes ['x', ',', 'y', ',', '3', '4']) = .pass 34 0x22 := by decide +kernel

/-- Two commas in the payload's place: the split is at the last one. -/
theorem test_validateLine_last_delimiter :
    validateLine (asciiBytes ['x', ',', 'y', ',', '1', '2', ',', '3', '4']) = .fail 34 0x1F := by decide +kernel

theorem test_validateLine_malformed :
    validateLine [] = .malformedNoDelimiter ∧ validateLine [0x2C] = .malformedBadInteger ∧
    validateLine (asciiBytes ['x', ',', ' ', '3', '4']) = .malformedBadInteger := by decide

/-! ## Single steps -/

/-- A run in progress, in the header line. -/
def inRun : State := { State.reset with phase := .run }

/-- A run in progress, in the first data line, with nothing received. -/
def inLine : State := { inRun with lineIdx := 1 }

/-- After `TEXT "x,y,34"` in the first data line: the row before EOL of program 3.3. -/
def inChecksum : State :=
  { inLine with acc := 0x53, snap := 0x22, exp := 34, seen := true, hasDig := true, dirty := true }

/-- A run that has ended, with no line seen. -/
def inDone : State := { State.reset with phase := .done, output := [.runBegin, .summary 0 0 0] }

/-- After `ABORT` from reset (F1 of section 2.10). -/
def inFault : State :=
  { State.reset with phase := .faulted, cause := .resourceAccess, output := [.fault .resourceAccess 0] }

/-- The same state with the policy FATAL. -/
def fatal (s : State) : State := { s with params := { s.params with policy := .fatal } }

/-- The same state with the host about to present a word. -/
def presented (w : CmdWord) (s : State) : State := { s with input := [.command w] }

/-- F15: START leaves FAULTED and clears CAUSE. -/
theorem test_start_from_faulted :
    nextState (exec .start inFault) = some { inRun with output := [.fault .resourceAccess 0, .runBegin] } := by decide

/-- F7: START in RUN. -/
theorem test_start_in_run :
    nextState (exec .start inRun) =
      some { inRun with phase := .faulted, cause := .protocol, output := [.fault .protocol 0] } := by decide

/-- Program 3.3, word `242`: from ACC DF, SNAP 18, SEEN to ACC EC, BADCH. -/
theorem test_char_other :
    nextState (exec (.char 0x42) { inRun with acc := 0xDF, snap := 0x18, seen := true, dirty := true }) =
      some { inRun with acc := 0xEC, snap := 0x18, seen := true, badCh := true, dirty := true } := by decide

/-- Program 3.3, word `234`: from ACC 80, EXP 3 to ACC 53, EXP 34. -/
theorem test_char_digit :
    nextState (exec (.char 0x34)
      { inLine with acc := 0x80, snap := 0x22, exp := 3, seen := true, hasDig := true, dirty := true }) =
      some inChecksum := by decide

/-- Program 3.3, the second EOL: PROGRESS(1), CHECKED 1, LINEIDX 2. -/
theorem test_eol_pass :
    nextState (exec .eol inChecksum) =
      some { inRun with lineIdx := 2, checked := 1, output := [.progress 1] } := by decide

/-- Program 3.6: a line without a delimiter under policy FATAL. -/
theorem test_eol_fatal :
    nextState (exec .eol (fatal { inLine with lineIdx := 2, checked := 1, acc := 0x76, dirty := true })) =
      some (fatal { inLine with
        lineIdx := 2, checked := 1, acc := 0x76, dirty := true, phase := .faulted, cause := .malformedNoDelimiter,
        output := [.malformed 2 .malformedNoDelimiter, .fault .malformedNoDelimiter 2] }) := by decide

/-- F8: EOS of an empty source. -/
theorem test_eos_empty :
    nextState (exec .eos { inRun with output := [.runBegin] }) = some inDone := by decide

/-- F12: EOS in mid-line; SR0 is 0x4D7. -/
theorem test_eos_in_mid_line :
    (nextState (exec .eos inChecksum)).map (fun t => (t.sr0, t.output)) = some (0x4D7, [.fault .protocol 1]) := by
  decide

/-- F1: ABORT from reset; SR0 is 0x007. -/
theorem test_abort_in_idle :
    nextState (exec .abort State.reset) = some inFault ∧ inFault.sr0 = 0x007 := by decide

/-- F9: ABORT in DONE. -/
theorem test_abort_in_done :
    (nextState (exec .abort inDone)).map (fun t => (t.phase, t.cause)) = some (.faulted, .protocol) := by decide

/-- F5 and F11: a reserved word in IDLE faults with SR0 0x013, and in FAULTED it is ignored. -/
theorem test_reserved_word :
    (nextState (step (presented 0x000 State.reset))).map State.sr0 = some 0x013 ∧
    nextState (step (presented 0x7FF inFault)) = some inFault := by decide

/-- A word presented after reset is the one the first step runs. -/
theorem test_withFetchWord :
    nextState (step (State.reset.withFetchWord 16 0x500)) = some inFault := by decide

/-- Reset in mid-run: every register is zero, the events stay (70_reset_and_hazards.md R150). -/
theorem test_reset_in_run :
    nextState (step { inChecksum with output := [.runBegin], input := [.reset] }) =
      some { State.reset with output := [.runBegin] } := by decide

/-- The kinds of 30_encoding.md R61. -/
theorem test_event_kinds :
    [Event.runBegin, .header 0 true, .progress 1, .mismatch 1 35 false 34, .malformed 2 .malformedNoDelimiter,
      .summary 0 0 0, .fault .protocol 0].map Event.kindCode = [1, 2, 3, 4, 5, 6, 7] := by decide

/-! ## Witnesses: a state and operands that meet the hypotheses of each statement -/

theorem witness_DecodeAndEncodeAgree :
    Instr.wellFormed (.char 0xFF) = true ∧ Instr.wellFormed .abort = true ∧
    decode 0x200 = .instr (.char 0x00) ∧ decode 0x500 = .instr .abort := by decide

theorem witness_ReservedWordsAreNamed :
    (Opcode.reserved7 = .reserved0 ∨ Opcode.reserved7 = .reserved6 ∨ Opcode.reserved7 = .reserved7) ∧
    (Opcode.abort = .start ∨ Opcode.abort = .eol ∨ Opcode.abort = .eos ∨ Opcode.abort = .abort) ∧
    (0x01 : Byte) ≠ 0 ∧ (0xFF : Byte) ≠ 0 := by decide

theorem witness_StepExecutesPresentedCommand :
    (presented 0x100 State.reset).busy = false ∧ (presented 0x100 State.reset).input = .command 0x100 :: [] ∧
    decode 0x100 = .instr .start := by decide

theorem witness_StepFaultsOnReservedWord :
    (presented 0x600 inDone).busy = false ∧ (presented 0x600 inDone).input = .command 0x600 :: [] ∧
    decode 0x600 = .reserved (.opcode .reserved6) ∧ (presented 0x600 inDone).phase ≠ .faulted := by decide

theorem witness_StepFaultsOnReservedWord_ignored :
    (presented 0x301 inFault).busy = false ∧ (presented 0x301 inFault).input = .command 0x301 :: [] ∧
    decode 0x301 = .reserved (.operand .eol 0x01) ∧ (presented 0x301 inFault).phase = .faulted := by decide

theorem witness_StepTakesReset :
    ({ inChecksum with input := [.reset] } : State).busy = false ∧
    ({ inChecksum with input := [.reset] } : State).input = .reset :: [] := by decide

theorem witness_QuietHostChangesNothing : inChecksum.busy = false ∧ inChecksum.input = [] := by decide

theorem witness_PhaseTableIsFollowed :
    (presented 0x300 inChecksum).busy = false ∧ (presented 0x300 inChecksum).CauseMatchesPhase ∧
    (presented 0x300 inChecksum).input = .command 0x300 :: [] := by decide

theorem witness_FaultedIsLeftOnlyByStartOrReset :
    ∃ t, (presented 0x100 inFault).phase = .faulted ∧ step (presented 0x100 inFault) = .next t ∧ t.phase = .run :=
  ⟨_, by decide, rfl, by decide⟩

theorem witness_FaultedIsLeftOnlyByStartOrReset_reset :
    (∃ t, step { inFault with input := [.reset] } = .next t ∧ t.phase = .idle) ∧
    (∃ t, step (presented 0x7FF inFault) = .next t ∧ t.phase = .faulted) :=
  ⟨⟨_, rfl, by decide⟩, ⟨_, rfl, by decide⟩⟩

theorem witness_FaultIsSticky :
    inFault.busy = false ∧ inFault.phase = .faulted ∧ encode .start ∉ ([0x231, 0x300, 0x400, 0x500, 0x7FF] : List CmdWord) := by
  decide

theorem witness_ParametersAreNeverWritten : ∃ t, step (presented 0x300 (fatal inLine)) = .next t := ⟨_, rfl⟩

/-- A step that emits two events. -/
theorem witness_OutputOnlyGrows :
    ∃ t, step (presented 0x300 { inChecksum with exp := 35 }) = .next t ∧
      t.output = [.progress 1, .mismatch 1 35 false 0x22] :=
  ⟨_, rfl, by decide⟩

theorem witness_StartBeginsRun :
    State.reset.phase ≠ .run ∧ inDone.phase ≠ .run ∧ inFault.phase ≠ .run ∧ inRun.phase = .run := by decide

/-- The clauses of CHAR at their boundaries: the byte below the digits, the first and the last digit, the byte above. -/
theorem witness_CharFoldsAndScansByte :
    inChecksum.phase = .run ∧ inChecksum.seen = true ∧
    ¬(0x30 ≤ (0x2F : Byte).toNat) ∧ (0x30 ≤ (0x30 : Byte).toNat ∧ (0x30 : Byte).toNat ≤ 0x39) ∧
    (0x30 ≤ (0x39 : Byte).toNat ∧ (0x39 : Byte).toNat ≤ 0x39) ∧ ¬((0x3A : Byte).toNat ≤ 0x39) ∧
    (0x2F : Byte) ≠ 0x2C ∧ (0x30 : Byte) ≠ 0x2C := by decide

theorem witness_EolReportsHeader :
    inRun.phase = .run ∧ inRun.lineIdx = 0 ∧ inRun.lineIdx ≠ 2 ^ inRun.params.cntW - 1 := by decide

theorem witness_EolChecksDataLine :
    inChecksum.phase = .run ∧ 1 ≤ inChecksum.lineIdx ∧ inChecksum.lineIdx ≠ 2 ^ inChecksum.params.cntW - 1 ∧
    inChecksum.seen = true ∧ inChecksum.hasDig = true ∧ inChecksum.badCh = false := by decide

theorem witness_EolTreatsMalformedLine_noDelimiter :
    inLine.phase = .run ∧ 1 ≤ inLine.lineIdx ∧ inLine.lineIdx ≠ 2 ^ inLine.params.cntW - 1 ∧
    inLine.seen = false ∧ inLine.params.policy = .skip ∧ (fatal inLine).params.policy = .fatal := by decide

theorem witness_EolTreatsMalformedLine_badInteger :
    ({ inChecksum with badCh := true } : State).phase = .run ∧ 1 ≤ inChecksum.lineIdx ∧
    inChecksum.lineIdx ≠ 2 ^ inChecksum.params.cntW - 1 ∧ inChecksum.seen = true ∧
    ({ inChecksum with badCh := true } : State).badCh = true ∧
    ({ inChecksum with hasDig := false } : State).hasDig = false := by decide

/-- Program 3.11: `CNT_W = 2`, LINEIDX 3. -/
theorem witness_EolFaultsAtCounterCeiling :
    ({ inChecksum with lineIdx := 3, params := ⟨16, 2, .skip⟩ } : State).phase = .run ∧
    ({ inChecksum with lineIdx := 3, params := ⟨16, 2, .skip⟩ } : State).lineIdx = 2 ^ 2 - 1 := by decide

theorem witness_EosEndsRun : inRun.phase = .run ∧ inRun.dirty = false ∧ inChecksum.phase = .run ∧ inChecksum.dirty = true := by
  decide

theorem witness_AbortFailsRun :
    State.reset.phase = .idle ∧ inRun.phase = .run ∧ inDone.phase = .done ∧ inFault.phase = .faulted := by decide

theorem witness_CommandOutOfPlaceRaisesProtocol :
    State.reset.phase = .idle ∧ inDone.phase = .done ∧ inRun.phase = .run ∧
    inChecksum.phase = .run ∧ inChecksum.dirty = true := by decide

theorem witness_CommandIsIgnoredInFaulted : inFault.phase = .faulted ∧ Instr.eol ≠ .start := by decide

theorem witness_ChecksumIsLinear : ([0x31, 0x32] : List Byte).length = ([0xFF, 0x00] : List Byte).length := by decide

theorem witness_OneByteChangeIsDetected : (0x00 : Byte) ≠ 0x80 := by decide

theorem witness_ClippedComparisonIsExact : Params.valid ⟨9, 2, .fatal⟩ ∧ Params.default.valid := by decide

theorem witness_RegistersTrackTheLine : inLine.phase = .run ∧ inLine.EngineAtRest ∧ inLine.LineClear := by decide

/-- The premises at both ends of the range of LINEIDX, with `CNT_W = 2`, and a line for each verdict. -/
theorem witness_LineIsJudgedAsReference :
    inLine.params.valid ∧ inLine.phase = .run ∧ inLine.EngineAtRest ∧ inLine.LineClear ∧ 1 ≤ inLine.lineIdx ∧
    inLine.lineIdx < 2 ^ inLine.params.cntW - 1 ∧
    (1 ≤ ({ inLine with lineIdx := 2, params := ⟨9, 2, .fatal⟩ } : State).lineIdx ∧ 2 < 2 ^ 2 - 1) ∧
    validateLine [0x2C, 0x30] = .pass 0 0 ∧ validateLine [0x2C, 0x31] = .fail 1 0 ∧
    validateLine [0x20] = .malformedNoDelimiter ∧ validateLine [0x2C, 0x20] = .malformedBadInteger := by decide

/-- A source of as many lines as `CNT_W = 2` counts, and the two ways a run ends. -/
theorem witness_RunComputesReferenceValidation :
    inFault.params.valid ∧ inFault.phase ≠ .run ∧ inFault.EngineAtRest ∧
    ([[0x68], [0x2C, 0x30], [0x20]] : List (List Byte)).length ≤ 2 ^ 2 - 1 ∧
    validate ⟨9, 2, .skip⟩ [[0x68], [0x2C, 0x30], [0x20]] =
      .done 1 0 1 [.runBegin, .header 0 true, .progress 1, .malformed 2 .malformedNoDelimiter, .summary 1 0 1] ∧
    validate ⟨9, 2, .fatal⟩ [[0x68], [0x2C, 0x30], [0x20]] =
      .faulted .malformedNoDelimiter 2
        [.runBegin, .header 0 true, .progress 1, .malformed 2 .malformedNoDelimiter,
          .fault .malformedNoDelimiter 2] := by decide

theorem witness_RunDependsOnStreamAlone :
    inFault.params = inDone.params ∧ inFault.EngineAtRest ∧ inDone.EngineAtRest ∧ inFault.phase ≠ .run ∧
    inDone.phase ≠ .run := by decide

/-- The invariants of a data line that waits for its EOL. -/
theorem witness_inv_inChecksum : (presented 0x300 { inChecksum with exp := 35 }).Inv :=
  ⟨⟨by decide, by decide, by decide, by decide, by decide, by decide, by decide, by decide, by decide, by decide⟩,
    by decide, by decide, by decide, by decide⟩

theorem witness_RegistersStayConsistent :
    ∃ t, (presented 0x300 { inChecksum with exp := 35 }).Inv ∧
      step (presented 0x300 { inChecksum with exp := 35 }) = .next t :=
  ⟨_, witness_inv_inChecksum, rfl⟩

theorem witness_ResetStateIsConsistent : Params.valid ⟨9, 2, .skip⟩ := by decide

theorem witness_CauseStaysExplained :
    ∃ t, (presented 0x300 (fatal inLine)).Inv ∧ (presented 0x300 (fatal inLine)).CauseExplained ∧
      step (presented 0x300 (fatal inLine)) = .next t ∧ t.cause = .malformedNoDelimiter :=
  ⟨_,
    ⟨⟨by decide, by decide, by decide, by decide, by decide, by decide, by decide, by decide, by decide, by decide⟩,
      by decide, by decide, by decide, by decide⟩,
    by decide, rfl, by decide⟩

theorem witness_EmittedEventsAreLegal :
    ∃ t, (presented 0x300 { inChecksum with exp := 35 }).Inv ∧
      (presented 0x300 { inChecksum with exp := 35 }).OutputLegal ∧
      step (presented 0x300 { inChecksum with exp := 35 }) = .next t ∧ t.output.length = 2 :=
  ⟨_, witness_inv_inChecksum, fun e h => absurd h (List.not_mem_nil (a := e)), rfl, by decide⟩

theorem witness_LastEventTellsEndOfRun :
    ∃ t, (presented 0x500 inDone).LastEventTellsEnd ∧ step (presented 0x500 inDone) = .next t ∧ t.phase = .faulted :=
  ⟨_, by decide, rfl, by decide⟩

theorem witness_StatusReadReturnsRegister : (presented 0x300 { inChecksum with exp := 35 }).Inv := witness_inv_inChecksum

/-! ### The ports -/

/-- The pins of a host that presents one word and takes events. -/
def pinsOf (w : CmdWord) : Pins :=
  { rst := false, cmd := w, cmdValid := true, evtReady := true, srSel := 0, bitSteps := 1, showEvent := true }

/-- The ports around a state between commands, with all its events taken. -/
def portsOf (s : State) : PortState := { PortState.reset with core := s, taken := s.output }

/-- The ports right after a CHAR was accepted in phase RUN. -/
def portsInChar : PortState :=
  { PortState.reset with core := inLine.acceptChar 0x78, atAccept := inLine }

theorem witness_portsInChar : portsInChar.Inv ∧ portsInChar.core.busy = true :=
  ⟨⟨by decide, fun _ => ⟨rfl, 0x78, 0, by decide, by decide, by decide, rfl⟩, fun h => absurd h (by decide)⟩, by decide⟩

theorem witness_portsOf : (portsOf inChecksum).Inv ∧ (portsOf inChecksum).AllDelivered :=
  ⟨⟨by decide, fun h => absurd h (by decide), fun _ => by decide⟩, by decide⟩

/-- An edge that accepts a word, and one inside a CHAR with a word that waits. -/
theorem witness_PortsRefineCommandSteps :
    ((portsOf inChecksum).Inv ∧ (pinsOf 0x300).rst = false ∧ (portsOf inChecksum).offered = none ∧
      (portsOf inChecksum).cmdReady = true ∧ (pinsOf 0x300).cmdValid = true) ∧
    (portsInChar.Inv ∧ ({ portsInChar with offered := some 0x300 } : PortState).offered = some (pinsOf 0x300).cmd ∧
      portsInChar.cmdReady = false) :=
  ⟨⟨witness_portsOf.1, by decide⟩, ⟨witness_portsInChar.1, by decide⟩⟩

/-- An edge under reset at which a word that waited has changed. -/
theorem witness_PortsRefineCommandSteps_reset :
    ({ pinsOf 0x300 with rst := true } : Pins).rst = true ∧
    ({ portsInChar with offered := some 0x279 } : PortState).offered = some 0x279 := by decide

/-- The pace is free: with eight bit steps at the edge that accepts a CHAR, BUSY is never seen at 1. -/
theorem test_char_in_one_edge :
    (nextState ((portsOf inLine).edge { pinsOf 0x278 with bitSteps := 8 })).map (fun q => (q.core.acc, q.cmdReady)) =
      some (0x3A, true) := by decide

theorem witness_PortsStayConsistent :
    ∃ q, portsInChar.Inv ∧ portsInChar.edge (pinsOf 0x279) = .next q :=
  ⟨_, witness_portsInChar.1, rfl⟩

/-- After an EOL whose PROGRESS stands on the event port. -/
def portsShowing : PortState := { portsOf State.reset with waiting := [.progress 1], shown := true }

theorem witness_NoEventIsLost :
    ∃ q, (pinsOf 0x300).rst = false ∧ (portsOf inChecksum).AllDelivered ∧ (portsOf inChecksum).evtValid = false ∧
      (portsOf inChecksum).edge (pinsOf 0x300) = .next q ∧ q.evt = some (.progress 1) :=
  ⟨_, rfl, witness_portsOf.2, rfl, rfl, by decide⟩

/-- The event taken, and the event held. -/
theorem witness_NoEventIsLost_shown :
    portsShowing.evtValid = true ∧
    (∃ q, (pinsOf 0x300).evtReady = true ∧ portsShowing.edge (pinsOf 0x300) = .next q ∧ q.taken = [.progress 1]) ∧
    (∃ q, portsShowing.edge { pinsOf 0x300 with evtReady := false } = .next q ∧ q.evt = some (.progress 1)) :=
  ⟨by decide, ⟨_, rfl, rfl, by decide⟩, ⟨_, rfl, by decide⟩⟩

theorem witness_ResetFallsAnywhere : ({ pinsOf 0x300 with rst := true } : Pins).rst = true := by decide

theorem witness_StatusReadSeesNoHalfDoneByte :
    portsInChar.Inv ∧ portsInChar.core.busy = true ∧
      portsInChar.core = State.engineTick^[0] (portsInChar.atAccept.acceptChar 0x78) :=
  ⟨witness_portsInChar.1, witness_portsInChar.2, rfl⟩

theorem witness_ChangedCommandIsRefused :
    (pinsOf 0x279).rst = false ∧ (pinsOf 0x279).cmdValid = true ∧
    ({ portsInChar with offered := some 0x278 } : PortState).offered = some 0x278 ∧ (0x278 : CmdWord) ≠ (pinsOf 0x279).cmd := by
  decide

/-! ### The state record, and the result of a run -/

theorem witness_StepReadsRegistersAlone :
    (presented 0x300 inChecksum).busy = false ∧ (presented 0x300 inChecksum).input = .command 0x300 :: [] := by decide

/-- The premises are those of RunComputesReferenceValidation; here the run, with what may follow it. -/
theorem witness_RunResultIsReferenceResult :
    inFault.params.valid ∧ inFault.phase ≠ .run ∧ inFault.EngineAtRest ∧
    ([] : List (List Byte)).length ≤ 2 ^ inFault.params.cntW - 1 := by decide

theorem witness_FaultOutsideRunIsNoRun :
    State.reset.busy = false ∧ State.reset.phase = .idle ∧ (0x500 : CmdWord) = encode .abort ∧
    inDone.busy = false ∧ inDone.phase ≠ .run ∧ (0x500 : CmdWord) ≠ encode .start := by decide

/-- F9 and F15: an ABORT in DONE does not undo the run that has ended, and the run after it has its own events. -/
theorem test_runResults_of_two_runs :
    State.reset.runResults
        [.command 0x100, .command 0x400, .command 0x500, .command 0x100, .command 0x100] =
      [.summary 0 0 0 [.runBegin, .summary 0 0 0], .failure .protocol 0 [.runBegin, .fault .protocol 0]] := by
  decide

/-- A CHAR in IDLE (F2) is no run, an ABORT in IDLE (F1) is one, and a reset in mid-run leaves no result (R9, R151). -/
theorem test_runResults_outside_runs :
    State.reset.runResults [.command 0x231, .command 0x100, .command 0x400] =
      [.summary 0 0 0 [.runBegin, .summary 0 0 0]] ∧
    State.reset.runResults [.command 0x500, .command 0x231] =
      [.failure .resourceAccess 0 [.fault .resourceAccess 0]] ∧
    State.reset.runResults [.command 0x100, .reset, .command 0x100] = [.abandoned, .open] := by decide

end Sys2Proof.Tests
end

section
/-!
Faults with no run open (00_scope.md R9; 42_run_commands.md R113; 70_reset_and_hazards.md R160). In phases IDLE, DONE
and FAULTED a word other than START leaves no run open, and it ends a run only as an ABORT in IDLE.
-/

namespace Sys2Proof

/-! ## The word of a decoded instruction -/

/-- An operand-free command decodes to its instruction exactly when the operand byte is zero (R53). -/
theorem decodePlain_eq_instr_iff {op : Opcode} {i j : Instr} {d : Byte} :
    decodePlain op i d = .instr j ↔ d = 0 ∧ i = j := by
  unfold decodePlain
  split
  case isTrue hd => simp [hd]
  case isFalse hd => exact iff_of_false nofun fun h => hd h.1

/-- Decoding a command loses nothing: the instruction spells the command it came from (R53, R54). -/
theorem Command.toCommand_of_decode {c : Command} {i : Instr} (h : c.decode = .instr i) : i.toCommand = c := by
  obtain ⟨op, d⟩ := c
  cases op with
  | reserved0 | reserved6 | reserved7 => cases h
  | char => cases h; rfl
  | start | eol | eos | abort => obtain ⟨rfl, rfl⟩ := decodePlain_eq_instr_iff.1 h; rfl

/-- A word that decodes to an instruction is that instruction's word (R58, R59). -/
theorem encode_of_decode {w : CmdWord} {i : Instr} (h : decode w = .instr i) : encode i = w := by
  rw [encode, Command.toCommand_of_decode h, CmdWord.word_fields]

theorem decode_encode_abort : decode (encode .abort) = .instr .abort := by decide

/-- ABORT has one word (R51, R53). -/
theorem decode_eq_abort_iff {w : CmdWord} : decode w = .instr .abort ↔ w = encode .abort :=
  ⟨fun h => (encode_of_decode h).symm, fun h => h ▸ decode_encode_abort⟩

theorem ne_encode_abort_of_reserved {w : CmdWord} {r : Reserved} (h : decode w = .reserved r) :
    w ≠ encode .abort := by
  simp [← decode_eq_abort_iff, h]

end Sys2Proof

namespace Sys2Proof.Machine

/-! ## The effect of a command -/

/-- Every instruction has a next state in every phase (R110). -/
theorem exec_total (i : Instr) (s : State) : ∃ t, exec i s = .next t := by
  cases i <;> cases hp : s.phase <;> simp [exec, execStart, execChar, execEol, execEos, execAbort, hp]

/-- Only START opens a run. -/
theorem exec_phase_ne_run {i : Instr} {s t : State} (h : exec i s = .next t) (hp : s.phase ≠ .run)
    (hi : i ≠ .start) : t.phase ≠ .run := by
  obtain ⟨rfl, -⟩ | ⟨rfl, -⟩ | ⟨hs, -⟩ | ⟨_, -, hr, -⟩ | ⟨-, hr, -⟩ | ⟨-, hr, -⟩ | ⟨-, -, rfl⟩ :=
    exec_cases h
  · simp
  · exact hp
  · exact absurd hs hi
  · exact absurd hr hp
  · exact absurd hr hp
  · exact absurd hr hp
  · simp

/-- A reserved word opens no run (R54). -/
theorem State.acceptReserved_phase_ne_run {s : State} (hp : s.phase ≠ .run) : s.acceptReserved.phase ≠ .run := by
  obtain ⟨-, h⟩ | ⟨-, h⟩ := s.acceptReserved_cases <;> simp [h, hp]

/-- ABORT in IDLE raises RESOURCE_ACCESS (R113). -/
theorem exec_abort_of_idle {s : State} (hp : s.phase = .idle) :
    exec .abort s = .next (s.raise .resourceAccess) := by
  simp [exec, execAbort, hp]

/-! ## What a word adds to the results with no run open -/

/-- With no run open, ABORT in IDLE is the only word that ends one (R9). -/
theorem State.endsRun_iff_of_closed {w : CmdWord} {s t : State} (hp : s.phase ≠ .run) :
    s.endsRun w t = true ↔ s.phase = .idle ∧ w = encode .abort := by
  rw [← decode_eq_abort_iff]
  cases h : s.phase with
  | run => exact absurd h hp
  | idle | done | faulted => simp [State.endsRun, h]

/-- The result of a run that consists of one fault entry (R126, R160). -/
theorem State.reportRun_raise (c : Cause) (s : State) :
    (s.raise c).reportRun s.output.length = .failure c s.lineIdx [.fault c s.lineIdx] := by
  simp [State.reportRun]

/-- With no run open before or after it, an instruction adds a result only as an ABORT in IDLE. -/
theorem State.runResults_instr {s t : State} {w : CmdWord} {i : Instr} (more : List PortInput)
    (hb : s.busy = false) (hp : s.phase ≠ .run) (hd : decode w = .instr i) (h : exec i s = .next t)
    (ht : t.phase ≠ .run) :
    s.runResults (.command w :: more) =
      (if s.phase = .idle ∧ w = encode .abort then [t.reportRun s.output.length] else []) ++ t.runResults more := by
  rw [State.runResults, State.resultsFrom_instr _ more hb hd h, State.eventsBefore_of_closed hp,
    State.resultsFrom_of_closed ht s.output.length t.output.length]
  simp only [State.endsRun_iff_of_closed hp, State.runResults]

/-- With no run open, a reserved word adds no result. -/
theorem State.runResults_reserved {s : State} {w : CmdWord} {r : Reserved} (more : List PortInput)
    (hb : s.busy = false) (hp : s.phase ≠ .run) (hd : decode w = .reserved r) :
    s.runResults (.command w :: more) = s.acceptReserved.runResults more := by
  rw [State.runResults, State.resultsFrom_reserved _ more hb hd, State.eventsBefore_of_closed hp,
    State.resultsFrom_of_closed (State.acceptReserved_phase_ne_run hp) s.output.length s.acceptReserved.output.length,
    if_neg fun h => ne_encode_abort_of_reserved hd ((State.endsRun_iff_of_closed hp).1 h).2]
  rfl

/-- Settles O60, by what the word decodes to; the run of an ABORT in IDLE is the one fault entry. -/
theorem faultOutsideRunIsNoRun : Obligations.FaultOutsideRunIsNoRun := by
  intro s w more hb hp hw
  cases hd : decode w with
  | reserved r =>
    refine ⟨s.acceptReserved, State.afterWords_reserved [] hb hd, ?_⟩
    rw [if_neg fun h => ne_encode_abort_of_reserved hd h.2, State.runResults_reserved more hb hp hd, List.nil_append]
  | instr i =>
    obtain ⟨t, h⟩ := exec_total i s
    have hi : i ≠ .start := by
      rintro rfl
      exact hw (encode_of_decode hd).symm
    refine ⟨t, State.afterWords_instr [] hb hd h, ?_⟩
    rw [State.runResults_instr more hb hp hd h (exec_phase_ne_run h hp hi)]
    by_cases ha : s.phase = .idle ∧ w = encode .abort
    · obtain ⟨hidle, rfl⟩ := ha
      obtain rfl : i = .abort := by simpa [decode_encode_abort] using hd.symm
      obtain rfl : t = s.raise .resourceAccess := by simpa [exec_abort_of_idle hidle] using h.symm
      rw [State.reportRun_raise]
    · rw [if_neg ha, if_neg ha]

end Sys2Proof.Machine
end

section
/-!
The invariants of the registers over one step (10_state.md R25, R29, R30, R33; 41_line_commands.md R101): the eight bit
steps of a CHAR, what EOL can end in, and then each effect of a command.
-/

namespace Sys2Proof.Machine

/-! ## The eight bit steps of a byte -/

/-- Fewer than eight bit steps after the load, BITCNT counts them and BUSY is still 1 (R82). -/
theorem State.engineTick_iterate_loadEngine (s : State) (d : Byte) {k : Nat} (hk : k < 8) :
    State.engineTick^[k] (s.loadEngine d) =
      { s with
        acc := (bitSteps k s.acc d).1, shr := (bitSteps k s.acc d).2, bitCnt := BitVec.ofNat 4 k, busy := true } := by
  induction k with
  | zero => rfl
  | succ k ih =>
    have h7 : BitVec.ofNat 4 k < 7 := by bv_omega
    have h8 : BitVec.ofNat 4 k < 8 := by bv_omega
    have hs : BitVec.ofNat 4 k + 1 = BitVec.ofNat 4 (k + 1) := by bv_omega
    rw [Function.iterate_succ_apply', ih (by omega), State.engineTick_eq]
    simp only [if_pos h7, if_pos h8, hs, bitSteps_succ_last]

/-- The eighth bit step brings the engine to rest (R82, R30). -/
theorem State.engineTick_iterate_eight_loadEngine (s : State) (d : Byte) :
    State.engineTick^[8] (s.loadEngine d) =
      { s with acc := byteStep s.acc d, shr := 0x00, bitCnt := 0, busy := false } := by
  have hshr : (bitSteps 8 s.acc d).2 = 0x00 := by
    rw [bitSteps_snd]
    exact BitVec.ushiftRight_eq_zero (Nat.le_refl 8)
  rw [Function.iterate_succ_apply', State.engineTick_iterate_loadEngine s d (by omega), State.engineTick_eq]
  rw [bitSteps_succ_last] at hshr
  simp [byteStep, bitSteps_succ_last 7, hshr]

/-- The engine at any pace: it does bit steps until the eighth and then none. -/
theorem State.runEngine_iterate_loadEngine (s : State) (d : Byte) (n : Nat) {k : Nat} (hk : k ≤ 8) :
    State.runEngine n (State.engineTick^[k] (s.loadEngine d)) = State.engineTick^[min (k + n) 8] (s.loadEngine d) := by
  induction n generalizing k with
  | zero => rw [State.runEngine_zero, Nat.add_zero, Nat.min_eq_left hk]
  | succ n ih =>
    obtain h | rfl := Nat.lt_or_eq_of_le hk
    · have hb : (State.engineTick^[k] (s.loadEngine d)).busy = true := by rw [s.engineTick_iterate_loadEngine d h]
      rw [State.runEngine_succ, if_pos hb, ← Function.iterate_succ_apply' State.engineTick, ih h,
        Nat.succ_add_eq_add_succ]
    · rw [State.runEngine_of_rest _ _ (by rw [s.engineTick_iterate_eight_loadEngine d]),
        Nat.min_eq_right (Nat.le_add_right 8 _)]

/-- However many of its bit steps are done, the byte ends as its CHAR does as a whole (R30, R82). -/
theorem State.finishByte_iterate_acceptChar (s : State) (d : Byte) {k : Nat} (hk : k ≤ 8) :
    (State.engineTick^[k] (s.acceptChar d)).finishByte = s.charInRun d := by
  unfold State.charInRun State.acceptChar State.finishByte
  rw [State.runEngine_iterate_loadEngine _ d 8 hk, Nat.min_eq_right (by omega)]
  exact (State.runEngine_iterate_loadEngine _ d 8 (Nat.zero_le 8)).symm

/-- CHAR in phase RUN: the byte folded in, and the engine at rest again (R93, R30). -/
theorem State.charInRun_eq (s : State) (d : Byte) :
    s.charInRun d =
      { (s.scanByte d).markDirty with acc := byteStep s.acc d, shr := 0x00, bitCnt := 0, busy := false } := by
  rw [← s.finishByte_iterate_acceptChar d (Nat.le_refl 8)]
  have h := State.engineTick_iterate_eight_loadEngine (s.scanByte d).markDirty d
  rw [State.markDirty_acc, State.scanByte_acc] at h
  rw [State.acceptChar, h, State.finishByte_of_rest _ rfl]

/-! ## What EOL ends in -/

/-- A malformed line is reported, and then counted and closed or a fault, as the policy says (R97, R134). -/
theorem State.malformedLine_cases (s : State) (c : Cause) :
    s.params.policy = .skip ∧ s.malformedLine c = (s.emit (.malformed s.lineIdx c)).countSkipped.closeLine ∨
    s.params.policy = .fatal ∧ s.malformedLine c = (s.emit (.malformed s.lineIdx c)).raise c := by
  cases h : s.params.policy with
  | skip => exact .inl ⟨rfl, s.malformedLine_skip c h⟩
  | fatal => exact .inr ⟨rfl, s.malformedLine_fatal c h⟩

/-- A well-formed line is reported, counted and closed, with a MISMATCH or without (R96). -/
theorem State.dataLine_cases (s : State) :
    s.dataLine = (s.emit (.progress s.lineIdx)).countChecked.closeLine ∨
    s.dataLine = (s.emit (.progress s.lineIdx)).reportMismatch.countChecked.closeLine := by
  rw [State.dataLine]
  exact (s.emit (.progress s.lineIdx)).judgeChecksum_cases.imp (fun h => by rw [h.2]) (fun h => by rw [h.2])

/-- Everything EOL can do in phase RUN, down to the registers written and the events emitted (R94 to R98, R129). -/
theorem State.eolInRun_ends (s : State) :
    s.lineIdx = s.params.cntMax ∧ s.eolInRun = s.raise .counterOverflow ∨
    s.lineIdx ≠ s.params.cntMax ∧
      (s.lineIdx = 0 ∧ s.eolInRun = (s.emit (.header 0 (!s.seen))).closeLine ∨
      s.lineIdx ≠ 0 ∧
        ((∃ c, c ≠ .none ∧
          (s.params.policy = .skip ∧ s.eolInRun = (s.emit (.malformed s.lineIdx c)).countSkipped.closeLine ∨
          s.params.policy = .fatal ∧ s.eolInRun = (s.emit (.malformed s.lineIdx c)).raise c)) ∨
        s.eolInRun = (s.emit (.progress s.lineIdx)).countChecked.closeLine ∨
        s.eolInRun = (s.emit (.progress s.lineIdx)).reportMismatch.countChecked.closeLine)) := by
  obtain h | ⟨hf, h0, h⟩ | ⟨hf, h0, -, h⟩ | ⟨hf, h0, -, -, h⟩ | ⟨hf, h0, -, -, -, h⟩ := s.eolInRun_cases
  · exact .inl h
  · exact .inr ⟨hf, .inl ⟨h0, h⟩⟩
  · exact .inr ⟨hf, .inr ⟨h0, .inl ⟨.malformedNoDelimiter, nofun, h ▸ s.malformedLine_cases .malformedNoDelimiter⟩⟩⟩
  · exact .inr ⟨hf, .inr ⟨h0, .inl ⟨.malformedBadInteger, nofun, h ▸ s.malformedLine_cases .malformedBadInteger⟩⟩⟩
  · exact .inr ⟨hf, .inr ⟨h0, .inr (h ▸ s.dataLine_cases)⟩⟩

/-! ## What no command does -/

@[simp] theorem State.charInRun_params (s : State) (d : Byte) : (s.charInRun d).params = s.params := by
  simp [State.charInRun_eq]

@[simp] theorem State.eolInRun_params (s : State) : s.eolInRun.params = s.params := by
  obtain ⟨-, h⟩ | ⟨-, ⟨-, h⟩ | ⟨-, ⟨c, -, ⟨-, h⟩ | ⟨-, h⟩⟩ | h | h⟩⟩ := s.eolInRun_ends <;>
    simp [h, State.reportMismatch]

/-- No instruction writes the parameters (R33). -/
theorem exec_params {i : Instr} {s t : State} (h : exec i s = .next t) : t.params = s.params := by
  obtain ⟨e, -⟩ | ⟨e, -, -⟩ | ⟨-, -, e⟩ | ⟨d, -, -, e⟩ | ⟨-, -, e⟩ | ⟨-, -, -, e⟩ | ⟨-, -, e⟩ := exec_cases h <;>
    simp [e]

theorem State.acceptReserved_params (s : State) : s.acceptReserved.params = s.params := by
  obtain ⟨-, h⟩ | ⟨-, h⟩ := s.acceptReserved_cases <;> simp [h]

/-- Settles O14, one case of the step at a time. -/
theorem parametersAreNeverWritten : Obligations.ParametersAreNeverWritten := by
  intro s t h
  obtain ⟨-, rfl⟩ | ⟨-, -, rfl⟩ | ⟨rest, -, -, rfl⟩ | ⟨w, rest, r, -, -, -, rfl⟩ | ⟨w, rest, i, -, -, -, h⟩ :=
    step_cases h
  · exact s.engineTick_params
  · rfl
  · rfl
  · exact State.acceptReserved_params _
  · simpa using exec_params h

/-- CHAR brings the engine to rest from any state (R30). -/
theorem State.charInRun_engineAtRest (s : State) (d : Byte) : (s.charInRun d).EngineAtRest := by
  rw [State.charInRun_eq]
  exact ⟨rfl, rfl, rfl⟩

/-- EOL leaves the hidden registers alone (R94 to R98). -/
theorem State.eolInRun_engineAtRest {s : State} (h : s.EngineAtRest) : s.eolInRun.EngineAtRest := by
  obtain ⟨-, e⟩ | ⟨-, ⟨-, e⟩ | ⟨-, ⟨c, -, ⟨-, e⟩ | ⟨-, e⟩⟩ | e | e⟩⟩ := s.eolInRun_ends <;> rw [e] <;> exact h

/-- Between commands the engine is at rest (R30). -/
theorem exec_engineAtRest {i : Instr} {s t : State} (h : exec i s = .next t) (hr : s.EngineAtRest) :
    t.EngineAtRest := by
  obtain ⟨e, -⟩ | ⟨e, -, -⟩ | ⟨-, -, e⟩ | ⟨d, -, -, e⟩ | ⟨-, -, e⟩ | ⟨-, -, -, e⟩ | ⟨-, -, e⟩ := exec_cases h <;>
    rw [e]
  · exact hr
  · exact hr
  · exact hr
  · exact s.charInRun_engineAtRest d
  · exact State.eolInRun_engineAtRest hr
  · exact hr
  · exact hr

theorem State.acceptReserved_engineAtRest {s : State} (h : s.EngineAtRest) : s.acceptReserved.EngineAtRest := by
  obtain ⟨-, e⟩ | ⟨-, e⟩ := s.acceptReserved_cases <;> rw [e] <;> exact h

/-! ## The last event -/

theorem State.lastEventTellsEnd_of_run {s : State} (h : s.phase = .run) : s.LastEventTellsEnd := by
  simp [State.LastEventTellsEnd, h]

/-- Fault entry leaves its own FAULT as the last event (R126). -/
theorem State.raise_lastEventTellsEnd (c : Cause) (s : State) : (s.raise c).LastEventTellsEnd := by
  simp [State.LastEventTellsEnd]

/-- EOL either faults or leaves the run open (R110). -/
theorem State.eolInRun_lastEventTellsEnd {s : State} (h : s.phase = .run) : s.eolInRun.LastEventTellsEnd := by
  obtain ⟨-, e⟩ | ⟨-, ⟨-, e⟩ | ⟨-, ⟨c, -, ⟨-, e⟩ | ⟨-, e⟩⟩ | e | e⟩⟩ := s.eolInRun_ends <;> rw [e]
  · exact State.raise_lastEventTellsEnd _ _
  · exact State.lastEventTellsEnd_of_run h
  · exact State.lastEventTellsEnd_of_run h
  · exact State.raise_lastEventTellsEnd _ _
  · exact State.lastEventTellsEnd_of_run h
  · exact State.lastEventTellsEnd_of_run h

theorem State.endRun_lastEventTellsEnd (s : State) :
    (State.endRun (State.emit (.summary s.checked s.failed s.skipped) s)).LastEventTellsEnd := by
  simp [State.LastEventTellsEnd]

theorem exec_lastEventTellsEnd {i : Instr} {s t : State} (h : exec i s = .next t) (hs : s.LastEventTellsEnd) :
    t.LastEventTellsEnd := by
  obtain ⟨e, -⟩ | ⟨e, -, -⟩ | ⟨-, -, e⟩ | ⟨d, -, hp, e⟩ | ⟨-, hp, e⟩ | ⟨-, -, -, e⟩ | ⟨-, -, e⟩ := exec_cases h <;>
    rw [e]
  · exact State.raise_lastEventTellsEnd _ _
  · exact hs
  · exact State.lastEventTellsEnd_of_run rfl
  · exact State.lastEventTellsEnd_of_run (by simpa [State.charInRun_eq] using hp)
  · exact State.eolInRun_lastEventTellsEnd hp
  · exact s.endRun_lastEventTellsEnd
  · exact State.raise_lastEventTellsEnd _ _

/-- Settles O46: a step leaves the run open, ends it with its own last event, or emits nothing and keeps the counters,
CAUSE and LINEIDX. -/
theorem lastEventTellsEndOfRun : Obligations.LastEventTellsEndOfRun := by
  intro s t hs h
  obtain ⟨-, rfl⟩ | ⟨-, -, rfl⟩ | ⟨rest, -, -, rfl⟩ | ⟨w, rest, r, -, -, -, rfl⟩ | ⟨w, rest, i, -, -, -, h⟩ :=
    step_cases h
  · simpa [State.LastEventTellsEnd] using hs
  · exact hs
  · simp [State.LastEventTellsEnd]
  · obtain ⟨-, e⟩ | ⟨-, e⟩ := (s.withInput rest).acceptReserved_cases <;> rw [e]
    · exact State.raise_lastEventTellsEnd _ _
    · exact hs
  · exact exec_lastEventTellsEnd h hs

/-! ## The invariants of R25, one effect at a time -/

theorem State.cause_eq_none_of_run {s : State} (hp : s.phase = .run) (h : s.CauseMatchesPhase) : s.cause = .none := by
  simpa [State.CauseMatchesPhase, hp] using h

theorem State.causeMatchesPhase_of_none {s : State} (hc : s.cause = .none) (hp : s.phase ≠ .faulted) :
    s.CauseMatchesPhase :=
  ⟨fun h => absurd hc h, fun h => absurd h hp⟩

/-- Every per-line register of a clean line is 0 (R25). -/
theorem State.lineClear_of_clean {s : State} (hunseen : s.UnseenClear) (hclean : s.CleanClear)
    (hd : s.dirty = false) : s.LineClear := by
  obtain ⟨hacc, hseen⟩ := hclean hd
  obtain ⟨hsnap, hexp, hdig, hbad, hovf⟩ := hunseen hseen
  exact ⟨hacc, hsnap, hexp, hseen, hdig, hbad, hovf, hd⟩

/-- A clear line meets the invariants of its flags (R25, R34). -/
theorem State.LineClear.flags {s : State} (h : s.LineClear) : s.UnseenClear ∧ s.CleanClear ∧ s.ClippedAtCeiling := by
  obtain ⟨hacc, hsnap, hexp, hseen, hdig, hbad, hovf, -⟩ := h
  exact ⟨fun _ => ⟨hsnap, hexp, hdig, hbad, hovf⟩, fun _ => ⟨hacc, hseen⟩, fun ho => absurd (hovf.symm.trans ho) nofun⟩

/-- Fault entry keeps every number and every per-line register, and makes CAUSE and PHASE agree (R126). -/
theorem State.raise_inv {s : State} {c : Cause} (hc : c ≠ .none) (h : s.Inv) : (s.raise c).Inv := by
  obtain ⟨⟨hvalid, hrest, hfailed, -, hunseen, hclean, hclip, -⟩, hfit⟩ := h
  exact ⟨⟨hvalid, hrest, hfailed, by simp, hunseen, hclean, hclip, ⟨fun _ => rfl, fun _ => hc⟩, by simp, by simp⟩, hfit⟩

/-- START begins a run from nothing (R111). -/
theorem State.beginRun_inv {s : State} (h : s.Inv) : s.beginRun.Inv := by
  obtain ⟨⟨hvalid, hrest, -⟩, -⟩ := h
  have hline : s.beginRun.LineClear := ⟨rfl, rfl, rfl, rfl, rfl, rfl, rfl, rfl⟩
  obtain ⟨hunseen, hclean, hclip⟩ := hline.flags
  exact ⟨⟨hvalid, hrest, Nat.le_refl 0, fun _ => rfl, hunseen, hclean, hclip,
    State.causeMatchesPhase_of_none rfl nofun, nofun, fun _ => hline⟩,
    Nat.zero_le _, Nat.zero_le _, Nat.le_refl 0, fun _ => rfl⟩

/-- EOS without a byte in the open line: every per-line register is 0 already (R112, R25). -/
theorem State.endRun_inv {s : State} (e : Event) (hp : s.phase = .run) (hd : s.dirty = false) (h : s.Inv) :
    (State.endRun (s.emit e)).Inv := by
  obtain ⟨⟨hvalid, hrest, hfailed, hcount, hunseen, hclean, hclip, hcause, -⟩, hfit⟩ := h
  have hnone := State.cause_eq_none_of_run hp hcause
  exact ⟨⟨hvalid, hrest, hfailed, fun _ => hcount (.inl hp), hunseen, hclean, hclip,
    State.causeMatchesPhase_of_none hnone nofun, nofun, fun _ => State.lineClear_of_clean hunseen hclean hd⟩, hfit⟩

/-- What holds of a line in phase RUN that has been judged and counted, and is about to be closed (R98, R101). -/
structure State.LineCounted (s : State) : Prop where
  valid : s.params.valid
  rest : s.EngineAtRest
  phase : s.phase = .run
  cause : s.cause = .none
  failed : s.failed ≤ s.checked
  counted : s.checked + s.skipped = s.lineIdx
  room : s.lineIdx < s.params.cntMax
  fatal : s.params.policy = .fatal → s.skipped = 0

/-- Closing a counted line clears the per-line registers and keeps the numbers in step with LINEIDX (R98, R101). -/
theorem State.closeLine_inv {s : State} (h : s.LineCounted) : s.closeLine.Inv := by
  obtain ⟨hvalid, hrest, hp, hc, hfailed, hcount, hroom, hfatal⟩ := h
  have hsum : s.checked + s.skipped = max (s.lineIdx + 1) 1 - 1 := by omega
  have hline : s.closeLine.LineClear := ⟨rfl, rfl, rfl, rfl, rfl, rfl, rfl, rfl⟩
  obtain ⟨hunseen, hclean, hclip⟩ := hline.flags
  exact ⟨⟨hvalid, hrest, hfailed, fun _ => hsum, hunseen, hclean, hclip,
    State.causeMatchesPhase_of_none hc (by simp [hp]), by simp [hp], fun _ => hline⟩,
    Nat.zero_le _, hroom, hcount.le, hfatal⟩

/-- EOL in phase RUN: a fault, or a line counted and closed (R94 to R98). -/
theorem State.eolInRun_inv {s : State} (hp : s.phase = .run) (h : s.Inv) : s.eolInRun.Inv := by
  obtain ⟨⟨hvalid, hrest, hfailed, hcount, -, -, -, hcause, -⟩, -, hidx, -, hfatal⟩ := id h
  have hnone := State.cause_eq_none_of_run hp hcause
  have hsum := hcount (.inl hp)
  obtain ⟨-, e⟩ | ⟨hf, ⟨h0, e⟩ | ⟨h0, ⟨c, hc, ⟨hpol, e⟩ | ⟨-, e⟩⟩ | e | e⟩⟩ := s.eolInRun_ends <;> rw [e]
  · exact State.raise_inv nofun h
  all_goals have hroom : s.lineIdx < s.params.cntMax := lt_of_le_of_ne hidx hf
  · exact State.closeLine_inv ⟨hvalid, hrest, hp, hnone, hfailed, by simp; omega, hroom, hfatal⟩
  · exact State.closeLine_inv
      ⟨hvalid, hrest, hp, hnone, hfailed, by simp; omega, hroom, fun h => absurd (hpol.symm.trans h) nofun⟩
  · exact State.raise_inv hc h
  · exact State.closeLine_inv
      ⟨hvalid, hrest, hp, hnone, Nat.le_succ_of_le hfailed, by simp; omega, hroom, hfatal⟩
  · exact State.closeLine_inv
      ⟨hvalid, hrest, hp, hnone, Nat.succ_le_succ hfailed, by simp [State.reportMismatch]; omega, hroom, hfatal⟩

/-! ## The registers of the trailing field -/

/-- SEEN guards the registers of the trailing field through the scan of a byte (R93). -/
theorem State.scanByte_unseenClear {s : State} (d : Byte) (h : s.UnseenClear) : (s.scanByte d).UnseenClear := by
  obtain ⟨-, e⟩ | ⟨-, hs, e⟩ | ⟨-, -, hs, e⟩ | ⟨-, -, e⟩ := s.scanByte_cases d <;> rw [e]
  · simp [State.UnseenClear]
  · simp [State.UnseenClear, hs]
  · simp [State.UnseenClear, hs]
  · exact h

theorem State.scanByte_exp_le {s : State} (d : Byte) (h : s.exp ≤ s.params.expMax) :
    (s.scanByte d).exp ≤ s.params.expMax := by
  obtain ⟨-, e⟩ | ⟨-, -, e⟩ | ⟨-, -, -, e⟩ | ⟨-, -, e⟩ := s.scanByte_cases d <;> rw [e]
  · exact Nat.zero_le _
  · exact accumulateDigit_le _ _ _
  · exact h
  · exact h

/-- Once clipped, EXP stays at its ceiling (R24, R100). -/
theorem accumulateDigit_of_overflow {p : Params} {ovf : Bool} {e : Nat} {d : Byte}
    (he : ovf = true → e = p.expMax) (h : overflowAfter p ovf e d = true) : accumulateDigit p e d = p.expMax := by
  refine Nat.min_eq_right ?_
  obtain ho | ho := (overflowAfter_iff p ovf e d).1 h
  · rw [he ho, appendDigit]; omega
  · exact ho.le

theorem State.scanByte_clippedAtCeiling {s : State} (d : Byte) (h : s.ClippedAtCeiling) :
    (s.scanByte d).ClippedAtCeiling := by
  obtain ⟨-, e⟩ | ⟨-, -, e⟩ | ⟨-, -, -, e⟩ | ⟨-, -, e⟩ := s.scanByte_cases d <;> rw [e]
  · simp [State.ClippedAtCeiling]
  · exact fun ho => ⟨accumulateDigit_of_overflow (fun h' => (h h').1) ho, rfl⟩
  · exact h
  · exact h

/-- CHAR in phase RUN: the trailing field moves under its own invariants, ACC is any byte, DIRTY is set (R93). -/
theorem State.charInRun_inv {s : State} (d : Byte) (hp : s.phase = .run) (h : s.Inv) : (s.charInRun d).Inv := by
  obtain ⟨⟨hvalid, -, hfailed, hcount, hunseen, -, hclip, hcause, -⟩, hexp, hidx, hsum, hfatal⟩ := h
  have hnone := State.cause_eq_none_of_run hp hcause
  rw [State.charInRun_eq]
  refine ⟨⟨?_, ⟨rfl, rfl, rfl⟩, ?_, ?_, State.scanByte_unseenClear d hunseen, nofun,
    State.scanByte_clippedAtCeiling d hclip, ?_, ?_, ?_⟩, ?_, ?_, ?_, ?_⟩
  · simpa using hvalid
  · simpa using hfailed
  · simpa using hcount
  · exact State.causeMatchesPhase_of_none (by simpa using hnone) (by simp [hp])
  · simp [hp]
  · simp [hp]
  · simpa using State.scanByte_exp_le d hexp
  · simpa using hidx
  · simpa using hsum
  · simpa using hfatal

/-! ## The invariants of R25, over a step -/

theorem exec_inv {i : Instr} {s t : State} (h : exec i s = .next t) (hs : s.Inv) : t.Inv := by
  obtain ⟨e, -⟩ | ⟨e, -, -⟩ | ⟨-, -, e⟩ | ⟨d, -, hp, e⟩ | ⟨-, hp, e⟩ | ⟨-, hp, hd, e⟩ | ⟨-, -, e⟩ := exec_cases h <;>
    rw [e]
  · exact State.raise_inv nofun hs
  · exact hs
  · exact State.beginRun_inv hs
  · exact State.charInRun_inv d hp hs
  · exact State.eolInRun_inv hp hs
  · exact State.endRun_inv _ hp hd hs
  · exact State.raise_inv nofun hs

theorem State.acceptReserved_inv {s : State} (h : s.Inv) : s.acceptReserved.Inv := by
  obtain ⟨-, e⟩ | ⟨-, e⟩ := s.acceptReserved_cases <;> rw [e]
  · exact State.raise_inv nofun h
  · exact h

/-- The reset state has the invariants for all parameters in their ranges (R32). -/
theorem State.resetWith_inv {p : Params} (h : p.valid) : (State.resetWith p).Inv := by
  have hline : (State.resetWith p).LineClear := ⟨rfl, rfl, rfl, rfl, rfl, rfl, rfl, rfl⟩
  obtain ⟨hunseen, hclean, hclip⟩ := hline.flags
  exact ⟨⟨h, ⟨rfl, rfl, rfl⟩, Nat.le_refl 0, fun _ => rfl, hunseen, hclean, hclip,
    State.causeMatchesPhase_of_none rfl nofun, fun _ => ⟨⟨rfl, rfl, rfl, rfl⟩, hline⟩, fun _ => hline⟩,
    Nat.zero_le _, Nat.zero_le _, Nat.le_refl 0, fun _ => rfl⟩

/-- Settles O43. -/
theorem resetStateIsConsistent : Obligations.ResetStateIsConsistent :=
  ⟨State.resetWith_inv (by decide), fun _ => State.resetWith_inv⟩

/-- Settles O42: with the engine at rest a step is a reset, a whole command or nothing; each keeps the invariants. -/
theorem registersStayConsistent : Obligations.RegistersStayConsistent := by
  intro s t hs h
  obtain ⟨hb, -⟩ | ⟨-, -, rfl⟩ | ⟨rest, -, -, rfl⟩ | ⟨w, rest, r, -, -, -, rfl⟩ | ⟨w, rest, i, -, -, -, h⟩ :=
    step_cases h
  · obtain ⟨⟨-, ⟨-, -, hidle⟩, -⟩, -⟩ := hs
    exact absurd (hb.symm.trans hidle) nofun
  · exact hs
  · obtain ⟨⟨hvalid, -⟩, -⟩ := hs
    exact State.resetWith_inv hvalid
  · exact State.acceptReserved_inv hs
  · exact exec_inv h hs

end Sys2Proof.Machine
end

section
/-!
The ports (70_reset_and_hazards.md R150, R155 to R157): every clock edge keeps the invariant of the ports, and a status
read during a CHAR sees the state before it or after it (10_state.md R30).
-/

namespace Sys2Proof.Machine

/-! ## The events of one command -/

/-- EOL emits one event or two (R95 to R97, R129). -/
theorem State.eolInRun_output (s : State) :
    ∃ evs : List Event, evs.length ≤ 2 ∧ s.eolInRun.output = s.output ++ evs := by
  obtain ⟨-, h⟩ | ⟨-, ⟨-, h⟩ | ⟨-, ⟨c, -, ⟨-, h⟩ | ⟨-, h⟩⟩ | h | h⟩⟩ := s.eolInRun_ends <;>
    simp [h, State.reportMismatch]

/-- A command appends at most two events to the output (R157). -/
theorem exec_output {i : Instr} {s t : State} (h : exec i s = .next t) :
    ∃ evs : List Event, evs.length ≤ 2 ∧ t.output = s.output ++ evs := by
  obtain ⟨e, -⟩ | ⟨e, -, -⟩ | ⟨-, -, e⟩ | ⟨d, -, -, e⟩ | ⟨-, -, e⟩ | ⟨-, -, -, e⟩ | ⟨-, -, e⟩ := exec_cases h <;>
    rw [e]
  · exact ⟨[_], by simp, rfl⟩
  · exact ⟨[], by simp⟩
  · exact ⟨[_], by simp, rfl⟩
  · exact ⟨[], by simp [State.charInRun_eq]⟩
  · exact s.eolInRun_output
  · exact ⟨[_], by simp, rfl⟩
  · exact ⟨[_], by simp, rfl⟩

theorem State.acceptReserved_output (s : State) :
    ∃ evs : List Event, evs.length ≤ 2 ∧ s.acceptReserved.output = s.output ++ evs := by
  obtain ⟨-, e⟩ | ⟨-, e⟩ := s.acceptReserved_cases <;> rw [e]
  · exact ⟨[_], by simp, rfl⟩
  · exact ⟨[], by simp⟩

/-- The acceptance of a word either starts the bit steps of a CHAR or is the whole command, which leaves the engine at
rest and has emitted at most two events (R82, R156). -/
theorem State.acceptWord_ends {s t : State} {w : CmdWord} (h : s.acceptWord w = .next t) (hr : s.EngineAtRest) :
    (∃ d, s.phase = .run ∧ t = s.acceptChar d) ∨
    t.EngineAtRest ∧ ∃ evs : List Event, evs.length ≤ 2 ∧ t.output = s.output ++ evs := by
  obtain ⟨d, -, hp, e⟩ | ⟨i, -, h, -⟩ | ⟨r, -, rfl⟩ := State.acceptWord_cases h
  · exact .inl ⟨d, hp, e⟩
  · exact .inr ⟨exec_engineAtRest h hr, exec_output h⟩
  · exact .inr ⟨State.acceptReserved_engineAtRest hr, s.acceptReserved_output⟩

/-! ## The invariant of the ports, one kind of edge at a time -/

/-- A CHAR accepted at rest in phase RUN keeps the invariant through all eight bit steps (R30, R82). -/
theorem PortState.inv_of_bitSteps {p : PortState} {d : Byte} {k : Nat} (hk : k ≤ 8) (hwaiting : p.waiting = [])
    (hrun : p.atAccept.phase = .run) (hrest : p.atAccept.EngineAtRest)
    (hcore : p.core = State.engineTick^[k] (p.atAccept.acceptChar d)) : p.Inv := by
  refine ⟨by simp [hwaiting], fun hb => ⟨hwaiting, d, k, ?_, hrun, hrest, hcore⟩, fun hb => ?_⟩ <;>
    obtain hlt | rfl := Nat.lt_or_eq_of_le hk
  · exact hlt
  · rw [hcore, State.acceptChar, State.engineTick_iterate_eight_loadEngine] at hb
    exact absurd hb nofun
  · rw [hcore, State.acceptChar, State.engineTick_iterate_loadEngine _ _ hlt] at hb
    exact absurd hb nofun
  · rw [hcore, State.acceptChar, State.engineTick_iterate_eight_loadEngine]
    exact ⟨rfl, rfl, rfl⟩

theorem PortState.resetEdge_inv (p : PortState) : p.resetEdge.Inv :=
  ⟨Nat.zero_le 2, nofun, fun _ => ⟨rfl, rfl, rfl⟩⟩

/-- An edge that accepts a word: the bit steps of a CHAR begin, or a whole command leaves its events waiting. -/
theorem PortState.afterAccept_inv {p : PortState} {t : State} (pins : Pins) (hp : p.Inv) (hready : p.cmdReady = true)
    (h : p.core.acceptWord pins.cmd = .next t) : (p.afterAccept pins t).Inv := by
  obtain ⟨-, -, hidle⟩ := hp
  obtain ⟨hb, -⟩ := (PortState.cmdReady_iff p).1 hready
  obtain ⟨d, hrun, rfl⟩ | ⟨hrest, evs, hlen, hout⟩ := State.acceptWord_ends h (hidle hb)
  · refine PortState.inv_of_bitSteps (Nat.min_le_right (0 + pins.bitSteps) 8) ?_ hrun (hidle hb)
      (State.runEngine_iterate_loadEngine _ d pins.bitSteps (Nat.zero_le 8))
    simp [PortState.afterAccept, State.acceptChar]
  · obtain ⟨-, -, hbusy⟩ := id hrest
    have hcore : (p.afterAccept pins t).core = t := State.runEngine_of_rest _ t hbusy
    have hwaiting : (p.afterAccept pins t).waiting = evs := by simp [PortState.afterAccept, hout]
    refine ⟨by rwa [hwaiting], fun hb => ?_, fun _ => by rwa [hcore]⟩
    rw [hcore, hbusy] at hb
    exact absurd hb nofun

/-- An edge that accepts nothing: a CHAR goes on by as many bit steps as there are left, or an event is taken or not. -/
theorem PortState.busyEdge_inv {p : PortState} (pins : Pins) (hp : p.Inv) : (p.busyEdge pins).Inv := by
  obtain ⟨hlen, hchar, hidle⟩ := hp
  cases hb : p.core.busy with
  | true =>
    obtain ⟨hwaiting, d, k, hk, hrun, hrest, hcore⟩ := hchar hb
    refine PortState.inv_of_bitSteps (d := d) (Nat.min_le_right (k + pins.bitSteps) 8) ?_ hrun hrest ?_
    · simp [PortState.busyEdge, hwaiting]
    · exact (congrArg _ hcore).trans (State.runEngine_iterate_loadEngine _ d pins.bitSteps hk.le)
  | false =>
    have hcore : (p.busyEdge pins).core = p.core := State.runEngine_of_rest _ _ hb
    have hle : (p.busyEdge pins).waiting.length ≤ p.waiting.length := by
      simp only [PortState.busyEdge]
      split <;> simp
    refine ⟨hle.trans hlen, fun h => ?_, fun _ => by rw [hcore]; exact hidle hb⟩
    rw [hcore, hb] at h
    exact absurd h nofun

/-- Settles O52, one kind of edge at a time. -/
theorem portsStayConsistent : Obligations.PortsStayConsistent := by
  intro p q pins hp h
  obtain ⟨-, e⟩ | ⟨t, -, -, hready, -, ht, e⟩ | ⟨-, -, -, e⟩ | ⟨-, -, -, e⟩ := PortState.edge_cases h <;> rw [e]
  · exact p.resetEdge_inv
  · exact PortState.afterAccept_inv pins hp hready ht
  · exact hp
  · exact PortState.busyEdge_inv pins hp

/-- Settles O53. -/
theorem resetPortsAreConsistent : Obligations.ResetPortsAreConsistent :=
  ⟨⟨Nat.zero_le 2, nofun, fun _ => ⟨rfl, rfl, rfl⟩⟩, rfl⟩

/-! ## A status read at the ports -/

theorem exec_char_of_run {s : State} (d : Byte) (hp : s.phase = .run) : exec (.char d) s = .next (s.charInRun d) := by
  simp [exec, execChar, hp]

/-- A status read while BUSY is 1 sees one of the two states R30 allows. -/
theorem PortState.readView_of_busy {p : PortState} (n : BitVec 3) (hb : p.core.busy = true) :
    p.readView n = p.atAccept ∨ p.readView n = p.completed := by
  rw [PortState.readView, if_pos hb]
  split
  · exact .inr rfl
  · exact .inl rfl

/-- Settles O56: however many bit steps are done, the completed state is that of the whole CHAR. -/
theorem statusReadSeesNoHalfDoneByte : Obligations.StatusReadSeesNoHalfDoneByte := by
  intro p n ⟨_, hchar, _⟩ hb
  obtain ⟨-, d, k, hk, hrun, -, hcore⟩ := hchar hb
  refine ⟨⟨d, k, hk, hcore⟩, fun d k hk hcore => ⟨?_, PortState.readView_of_busy n hb⟩⟩
  rw [exec_char_of_run d hrun, PortState.completed, hcore, State.finishByte_iterate_acceptChar _ d hk.le]

end Sys2Proof.Machine
end

section
/-!
The state record (10_state.md R32, R33; 30_encoding.md R50): a command reads the parameters and the registers alone, so
the events emitted before it are carried along; and the reset state.
-/

namespace Sys2Proof.Machine

/-! ## The commands do not see the events emitted before -/

/-- The same state with some events emitted before all its own. -/
def State.afterEvents (before : List Event) (s : State) : State := { s with output := before ++ s.output }

theorem State.emit_afterEvents (e : Event) (s : State) (before : List Event) :
    (s.afterEvents before).emit e = (s.emit e).afterEvents before := by
  simp [State.emit, State.afterEvents]

theorem State.raise_afterEvents (c : Cause) (s : State) (before : List Event) :
    (s.afterEvents before).raise c = (s.raise c).afterEvents before :=
  State.emit_afterEvents _ { s with phase := .faulted, cause := c } before

theorem State.beginRun_afterEvents (s : State) (before : List Event) :
    (s.afterEvents before).beginRun = s.beginRun.afterEvents before := by
  simp [State.beginRun, State.emit, State.afterEvents]

theorem State.scanByte_afterEvents (s : State) (d : Byte) (before : List Event) :
    (s.afterEvents before).scanByte d = (s.scanByte d).afterEvents before := by
  obtain ⟨rfl, e⟩ | ⟨hd, hs, e⟩ | ⟨hd, hdig, hs, e⟩ | ⟨hd, hs, e⟩ := s.scanByte_cases d <;> rw [e]
  · exact State.scanByte_delim _
  · exact (State.scanByte_digit _ d hd).trans (if_pos hs)
  · exact (State.scanByte_other _ d hd hdig).trans (if_pos hs)
  · cases hdig : isDigit d
    · exact (State.scanByte_other _ d hd hdig).trans (if_neg (by simp [State.afterEvents, hs]))
    · exact (State.scanByte_digit _ d hdig).trans (if_neg (by simp [State.afterEvents, hs]))

theorem State.charInRun_afterEvents (s : State) (d : Byte) (before : List Event) :
    (s.afterEvents before).charInRun d = (s.charInRun d).afterEvents before := by
  rw [State.charInRun_eq, State.charInRun_eq, State.scanByte_afterEvents]
  rfl

theorem State.malformedLine_afterEvents (s : State) (c : Cause) (before : List Event) :
    (s.afterEvents before).malformedLine c = (s.malformedLine c).afterEvents before := by
  obtain ⟨hp, e⟩ | ⟨hp, e⟩ := s.malformedLine_cases c <;> rw [e]
  · rw [(s.afterEvents before).malformedLine_skip c hp, State.emit_afterEvents]
    rfl
  · rw [(s.afterEvents before).malformedLine_fatal c hp, State.emit_afterEvents, State.raise_afterEvents]
    rfl

theorem State.judgeChecksum_afterEvents (s : State) (before : List Event) :
    (s.afterEvents before).judgeChecksum = s.judgeChecksum.afterEvents before := by
  have hd : (s.afterEvents before).checksumDiffers = s.checksumDiffers := rfl
  rw [State.judgeChecksum, State.judgeChecksum, hd]
  split
  · exact State.emit_afterEvents _ s.countFailed before
  · rfl

theorem State.dataLine_afterEvents (s : State) (before : List Event) :
    (s.afterEvents before).dataLine = s.dataLine.afterEvents before := by
  rw [State.dataLine, State.emit_afterEvents, State.judgeChecksum_afterEvents]
  rfl

theorem State.headerLine_afterEvents (s : State) (before : List Event) :
    (s.afterEvents before).headerLine = s.headerLine.afterEvents before := by
  rw [State.headerLine, State.emit_afterEvents]
  rfl

theorem State.eolInRun_afterEvents (s : State) (before : List Event) :
    (s.afterEvents before).eolInRun = s.eolInRun.afterEvents before := by
  have hc : (s.afterEvents before).eolCase = s.eolCase := rfl
  rw [State.eolInRun, State.eolInRun, hc]
  cases s.eolCase with
  | overflow => exact s.raise_afterEvents _ before
  | header => exact s.headerLine_afterEvents before
  | noDelimiter => exact s.malformedLine_afterEvents _ before
  | badInteger => exact s.malformedLine_afterEvents _ before
  | wellFormed => exact s.dataLine_afterEvents before

theorem State.eosInRun_afterEvents (s : State) (before : List Event) :
    (s.afterEvents before).eosInRun = s.eosInRun.afterEvents before := by
  have hd : (s.afterEvents before).dirty = s.dirty := rfl
  rw [State.eosInRun, State.eosInRun, hd, State.emit_afterEvents]
  split
  · exact s.raise_afterEvents _ before
  · rfl

theorem State.acceptReserved_afterEvents (s : State) (before : List Event) :
    (s.afterEvents before).acceptReserved = s.acceptReserved.afterEvents before := by
  have hp' : (s.afterEvents before).phase = s.phase := rfl
  rw [State.acceptReserved, State.acceptReserved, hp']
  cases s.phase with
  | idle => exact s.raise_afterEvents _ before
  | run => exact s.raise_afterEvents _ before
  | done => exact s.raise_afterEvents _ before
  | faulted => rfl

theorem State.acceptReserved_withInput (s : State) (r : List PortInput) :
    (s.withInput r).acceptReserved = s.acceptReserved.withInput r := by
  have hp' : (s.withInput r).phase = s.phase := rfl
  rw [State.acceptReserved, State.acceptReserved, hp']
  cases s.phase <;> rfl

/-- The events emitted before a command are carried along (R33). -/
theorem exec_afterEvents {i : Instr} {s t : State} (h : exec i s = .next t) (before : List Event) :
    exec i (s.afterEvents before) = .next (t.afterEvents before) := by
  have hp' : (s.afterEvents before).phase = s.phase := rfl
  cases i <;> cases hp : s.phase <;>
    simp only [exec, execStart, execChar, execEol, execEos, execAbort, hp', hp, State.raise_afterEvents,
      State.beginRun_afterEvents, State.charInRun_afterEvents, State.eolInRun_afterEvents,
      State.eosInRun_afterEvents, Host.Outcome.next.injEq] at h ⊢ <;>
    subst h <;> rfl

/-! ## A step on a word, over the registers alone -/

theorem step_of_instr {s : State} {w : CmdWord} {rest : List PortInput} {i : Instr} (hb : s.busy = false)
    (hi : s.input = .command w :: rest) (hw : decode w = .instr i) : step s = exec i (s.withInput rest) := by
  simp [step, State.fetch, hb, hi, hw]

theorem step_of_reserved {s : State} {w : CmdWord} {rest : List PortInput} {r : Reserved} (hb : s.busy = false)
    (hi : s.input = .command w :: rest) (hw : decode w = .reserved r) :
    step s = .next (s.withInput rest).acceptReserved := by
  simp [step, State.fetch, hb, hi, hw]

theorem step_of_reset {s : State} {rest : List PortInput} (hb : s.busy = false) (hi : s.input = .reset :: rest) :
    step s = .next (s.withInput rest).resetBlock := by
  simp [step, State.fetch, hb, hi]

/-- The parameters and the registers by themselves: nothing emitted, nothing presented (R33). -/
def State.alone (s : State) : State := { s with output := [], input := [] }

/-- A state is its registers and parameters with its events and its stream around them. -/
theorem State.withInput_eq_alone (s : State) (rest : List PortInput) :
    s.withInput rest = (s.alone.afterEvents s.output).withInput rest := by
  simp [State.alone, State.afterEvents, State.withInput]

/-- What an instruction makes of the registers alone is what it makes of them with events and a stream around. -/
theorem exec_of_alone {i : Instr} {s t : State} (h : exec i s.alone = .next t) (rest : List PortInput) :
    exec i (s.withInput rest) =
      .next { registers := t.registers, params := s.params, output := s.output ++ t.output, input := rest } := by
  have hp : t.params = s.alone.params := exec_params h
  rw [State.withInput_eq_alone, exec_withInput (exec_afterEvents h s.output)]
  simp [State.afterEvents, State.withInput, hp, State.alone]

theorem State.acceptReserved_of_alone (s : State) (rest : List PortInput) :
    (s.withInput rest).acceptReserved =
      { registers := s.alone.acceptReserved.registers, params := s.params,
        output := s.output ++ s.alone.acceptReserved.output, input := rest } := by
  have hp : s.alone.acceptReserved.params = s.params := s.alone.acceptReserved_params
  rw [State.withInput_eq_alone, State.acceptReserved_withInput, State.acceptReserved_afterEvents, ← hp]
  rfl

theorem Registers.command_of_step {p : Params} {w : CmdWord} {r : Registers} {t : State}
    (h : step { registers := r, params := p, output := [], input := [.command w] } = .next t) :
    r.command p w = some (t.registers, t.output) := by
  rw [Registers.command, h]

/-- Settles O58, by what the word decodes to: the effect on the registers alone, with the events emitted before it and
the stream put around it. -/
theorem stepReadsRegistersAlone : Obligations.StepReadsRegistersAlone := by
  intro s w rest hb hi
  cases hw : decode w with
  | instr i =>
    obtain ⟨t, ht⟩ := exec_total i s.alone
    have hstep : step { s with output := [], input := [.command w] } = exec i s.alone := step_of_instr hb rfl hw
    exact ⟨t.registers, t.output, Registers.command_of_step (hstep.trans ht),
      (step_of_instr hb hi hw).trans (exec_of_alone ht rest)⟩
  | reserved why =>
    exact ⟨s.alone.acceptReserved.registers, s.alone.acceptReserved.output,
      Registers.command_of_step (step_of_reserved hb rfl hw),
      (step_of_reserved hb hi hw).trans (congrArg _ (s.acceptReserved_of_alone rest))⟩

/-! ## Reset -/

/-- Settles O7. -/
theorem stepTakesReset : Obligations.StepTakesReset :=
  fun _ _ hb hi => step_of_reset hb hi

/-- Settles O8: the registers of State.resetWith, for the default parameters. -/
theorem resetLeavesZero : Obligations.ResetLeavesZero := by
  unfold Obligations.ResetLeavesZero
  decide

/-- Settles O47: the reset state has no cause, no event and phase IDLE. -/
theorem resetStateIsExplained : Obligations.ResetStateIsExplained :=
  ⟨⟨nofun, nofun, nofun⟩, nofun, nofun, nofun⟩

end Sys2Proof.Machine
end

section
/-!
The status registers and the code numbers (10_state.md R19, R27 to R29; 60_exceptions.md R121; 30_encoding.md R61).
-/

namespace Sys2Proof.Machine

/-! ## Code numbers and SR0 -/

/-- Settles O48. -/
theorem codesAreThoseOfTheTables : Obligations.CodesAreThoseOfTheTables :=
  ⟨rfl, rfl, fun _ _ _ _ _ _ _ _ => rfl⟩

/-- PHASE stands in bits 1:0 of SR0 (R28). -/
theorem State.sr0_phase (s : State) : s.sr0.extractLsb' 0 2 = s.phase.code :=
  BitVec.extractLsb'_append_eq_right

/-- CAUSE stands in bits 5:2 of SR0 (R28). -/
theorem State.sr0_cause (s : State) : s.sr0.extractLsb' 2 4 = s.cause.code := by
  apply BitVec.eq_of_getLsbD_eq
  intro i hi
  have h1 : 1 < 2 + i := by omega
  rw [BitVec.getLsbD_extractLsb', State.sr0, BitVec.getLsbD_append, BitVec.getLsbD_append]
  simp [hi, h1]

/-- The flags stand in bits 6 to 11 of SR0, one bit each (R28). -/
theorem State.sr0_flags (s : State) :
    s.sr0.getLsbD 6 = s.seen ∧ s.sr0.getLsbD 7 = s.hasDig ∧ s.sr0.getLsbD 8 = s.badCh ∧
    s.sr0.getLsbD 9 = s.expOvf ∧ s.sr0.getLsbD 10 = s.dirty ∧ s.sr0.getLsbD 11 = s.anyFail := by
  unfold State.sr0
  refine ⟨?_, ?_, ?_, ?_, ?_, ?_⟩
  all_goals
    iterate 7 rw [BitVec.getLsbD_append]
    simp

/-- ANYFAIL says whether FAILED is not 0 (R26). -/
theorem State.anyFail_eq (s : State) : s.anyFail = decide (s.failed ≠ 0) := by
  rw [State.anyFail, decide_not]
  rfl

/-- Settles O49: each field at its place in the concatenation. -/
theorem statusFieldsArePacked : Obligations.StatusFieldsArePacked :=
  ⟨rfl, fun s => ⟨s.sr0_phase, s.sr0_cause, s.anyFail_eq ▸ s.sr0_flags⟩⟩

/-! ## Status reads -/

/-- Every status register fits the port (R155). -/
theorem statusWidth_le_statusPortWidth (p : Params) (n : BitVec 3) : statusWidth p n ≤ statusPortWidth p := by
  unfold statusWidth statusPortWidth
  split <;> omega

/-- A number that fits its register is read whole (R27, R29). -/
theorem State.readStatus_toNat {s : State} {n : BitVec 3} (h : s.statusNumber n < 2 ^ statusWidth s.params n) :
    (s.readStatus n).toNat = s.statusNumber n := by
  have hport := h.trans_le (Nat.pow_le_pow_right (by omega) (statusWidth_le_statusPortWidth s.params n))
  rw [State.readStatus, BitVec.toNat_setWidth, BitVec.toNat_ofNat, Nat.mod_eq_of_lt h, Nat.mod_eq_of_lt hport]

/-- The counters fit their registers: each is at most LINEIDX (R101). -/
theorem State.Inv.counters_le {s : State} (h : s.Inv) :
    s.lineIdx ≤ s.params.cntMax ∧ s.checked ≤ s.params.cntMax ∧ s.failed ≤ s.params.cntMax ∧
      s.skipped ≤ s.params.cntMax := by
  obtain ⟨⟨-, -, hfailed, -⟩, -, hidx, hsum, -⟩ := h
  omega

theorem State.Inv.exp_le {s : State} (h : s.Inv) : s.exp ≤ s.params.expMax := by
  obtain ⟨-, hexp, -⟩ := h
  exact hexp

/-- Settles O50: each register holds a number below two to its width. -/
theorem statusReadReturnsRegister : Obligations.StatusReadReturnsRegister := by
  intro s h
  obtain ⟨hidx, hchecked, hfailed, hskipped⟩ := h.counters_le
  have hlt {n w : Nat} (h : n ≤ 2 ^ w - 1) : n < 2 ^ w := Nat.lt_of_le_pred (Nat.two_pow_pos w) h
  exact ⟨State.readStatus_toNat s.sr0.isLt, State.readStatus_toNat s.acc.isLt, State.readStatus_toNat s.snap.isLt,
    State.readStatus_toNat (n := 3) (hlt h.exp_le), State.readStatus_toNat (n := 4) (hlt hidx),
    State.readStatus_toNat (n := 5) (hlt hchecked), State.readStatus_toNat (n := 6) (hlt hfailed),
    State.readStatus_toNat (n := 7) (hlt hskipped)⟩

end Sys2Proof.Machine
end

section
/-!
The encoding (30_encoding.md R50 to R54, R58): the decoder on a word given by its fields, the decoder and the encoder as
inverses of each other, and from that the opcode map as match and mask; then the two sorts of reserved word, and the
step on a word.
-/

namespace Sys2Proof

/-! ## Decoder and encoder -/

/-- Decoding the word of two fields is decoding the fields (R50). -/
theorem decode_word (c : Command) : decode c.word = c.decode := by
  rw [decode, Command.fields_word]

/-- Every instruction spells a legal command (R52, R53). -/
theorem Instr.wellFormed_eq_true (i : Instr) : i.wellFormed = true := by cases i <;> rfl

theorem Instr.decode_toCommand (i : Instr) : i.toCommand.decode = .instr i := by cases i <;> rfl

/-- The word of an instruction decodes to it, for every operand byte (R52, R58). -/
theorem decode_encode (i : Instr) : decode (encode i) = .instr i := by
  rw [encode, decode_word, Instr.decode_toCommand]

/-- A word decodes to an instruction exactly when it is that instruction's one word. -/
theorem decode_eq_instr_iff {w : CmdWord} {i : Instr} : decode w = .instr i ↔ encode i = w :=
  ⟨encode_of_decode, fun h => h ▸ decode_encode i⟩

/-- Settles O1: the decoder and the encoder each undo the other. -/
theorem decodeAndEncodeAgree : Obligations.DecodeAndEncodeAgree :=
  ⟨fun i _ => decode_encode i, fun _ i h => ⟨i.wellFormed_eq_true, encode_of_decode h⟩⟩

/-! ## The opcode map as match and mask -/

/-- The mask 0x7FF keeps the whole word (R51). -/
theorem CmdWord.and_fullMask (w : CmdWord) : w &&& 0x7FF = w := BitVec.and_allOnes

theorem CmdWord.opBits_append_operand (w : CmdWord) : w.opBits ++ w.operand = w := by
  simpa only [CmdWord.fields, Command.word, Opcode.bits_ofBits] using w.word_fields

/-- The mask 0x700 keeps the opcode field and clears the operand byte (R50, R51). -/
theorem CmdWord.and_opMask (w : CmdWord) : w &&& 0x700 = w.opBits ++ 0#8 :=
  calc w &&& 0x700 = (w.opBits ++ w.operand) &&& (BitVec.allOnes 3 ++ 0#8) := by
        rw [w.opBits_append_operand]; rfl
    _ = w.opBits ++ 0#8 := by rw [BitVec.and_append, BitVec.and_allOnes, BitVec.and_zero]

/-- A row under the mask 0x7FF matches the one word of its instruction (R51, R53). -/
theorem decode_eq_instr_iff_fullMask {w : CmdWord} {i : Instr} : decode w = .instr i ↔ w &&& 0x7FF = encode i := by
  rw [decode_eq_instr_iff, CmdWord.and_fullMask, eq_comm]

/-- The row of CHAR matches by the opcode field alone, and the operand is the low byte (R51, R52). -/
theorem decode_eq_char_iff {w : CmdWord} {d : Byte} :
    decode w = .instr (.char d) ↔ w &&& 0x700 = 0x200 ∧ d = w.setWidth 8 := by
  rw [decode_eq_instr_iff]
  constructor
  · rintro rfl
    obtain ⟨-, hrow, hd⟩ := Laws.TableRow.char d
    exact ⟨hrow, hd.symm⟩
  · rintro ⟨hrow, hd⟩
    have hop : w.opBits = Opcode.char.bits := (BitVec.append_left_inj 0#8).1 (w.and_opMask.symm.trans hrow)
    have hd' : w.operand = d := (BitVec.setWidth_eq_extractLsb' (by omega)).symm.trans hd.symm
    calc encode (.char d) = Opcode.char.bits ++ d := rfl
      _ = w := by rw [← hop, ← hd', w.opBits_append_operand]

/-- Decoding has no third outcome (R58). -/
theorem decode_reserved_iff {w : CmdWord} : (∃ r, decode w = .reserved r) ↔ ∀ i, decode w ≠ .instr i := by
  cases h : decode w with
  | instr i => simp
  | reserved r => simp

/-- Settles O2: each row from the one word of its instruction, and the reserved words as those that no row matches. -/
theorem decodeFollowsOpcodeTable : Obligations.DecodeFollowsOpcodeTable := by
  intro w
  have hstart : decode w = .instr .start ↔ w &&& 0x7FF = 0x100 := decode_eq_instr_iff_fullMask
  have heol : decode w = .instr .eol ↔ w &&& 0x7FF = 0x300 := decode_eq_instr_iff_fullMask
  have heos : decode w = .instr .eos ↔ w &&& 0x7FF = 0x400 := decode_eq_instr_iff_fullMask
  have habort : decode w = .instr .abort ↔ w &&& 0x7FF = 0x500 := decode_eq_instr_iff_fullMask
  refine ⟨hstart, fun _ => decode_eq_char_iff, heol, heos, habort, decode_reserved_iff.trans ⟨fun h => ?_, ?_⟩⟩
  · exact ⟨hstart.not.1 (h _), fun hrow => h _ (decode_eq_char_iff.2 ⟨hrow, rfl⟩), heol.not.1 (h _),
      heos.not.1 (h _), habort.not.1 (h _)⟩
  · rintro ⟨nstart, nchar, neol, neos, nabort⟩ i
    cases i with
    | start => exact hstart.not.2 nstart
    | char d =>
      intro h
      obtain ⟨hrow, -⟩ := decode_eq_char_iff.1 h
      exact nchar hrow
    | eol => exact heol.not.2 neol
    | eos => exact heos.not.2 neos
    | abort => exact habort.not.2 nabort

/-! ## Reserved words -/

/-- An operand that is not zero makes a word of a command without one reserved (R53). -/
theorem decodePlain_of_ne_zero {op : Opcode} {i : Instr} {d : Byte} (h : d ≠ 0) :
    decodePlain op i d = .reserved (.operand op d) := if_neg h

/-- Settles O3, opcode by opcode. -/
theorem reservedWordsAreNamed : Obligations.ReservedWordsAreNamed := by
  intro op d
  rw [decode_word]
  constructor
  · rintro (rfl | rfl | rfl) <;> rfl
  · rintro (rfl | rfl | rfl | rfl) hd <;> exact decodePlain_of_ne_zero hd

/-- Settles O4: six of the words are those of an instruction, the others are built from the two fields named here. -/
theorem writtenWordsDecode : Obligations.WrittenWordsDecode :=
  ⟨decode_encode .start, decode_encode (.char 0x2C), decode_encode (.char 0xFF), decode_encode .eol,
    decode_encode .eos, decode_encode .abort, decode_word ⟨.reserved0, 0⟩, decode_word ⟨.eol, 1⟩⟩

end Sys2Proof

namespace Sys2Proof.Machine

/-! ## The step on a word -/

/-- Settles O5. -/
theorem stepExecutesPresentedCommand : Obligations.StepExecutesPresentedCommand :=
  fun _ _ _ _ => step_of_instr

/-- Settles O6: the acceptance of a reserved word is a fault entry or, in FAULTED, nothing. -/
theorem stepFaultsOnReservedWord : Obligations.StepFaultsOnReservedWord := by
  refine ⟨rfl, fun s w rest r hb hi hw => ?_⟩
  rw [step_of_reserved hb hi hw]
  obtain ⟨hp, e⟩ | ⟨hp, e⟩ := (s.withInput rest).acceptReserved_cases <;> rw [e]
  · exact ⟨fun _ => rfl, fun h => absurd h hp⟩
  · exact ⟨fun h => absurd hp h, fun _ => rfl⟩

end Sys2Proof.Machine
end

section
/-!
The events emitted (30_encoding.md R62; 60_exceptions.md R121): each command emits events whose fields the invariants of
the registers (10_state.md R25) keep in the ranges of their kind.
-/

namespace Sys2Proof.Machine

/-! ## One event more -/

/-- A legal event keeps the output legal. -/
theorem State.emit_outputLegal {s : State} {e : Event} (hs : s.OutputLegal) (he : e.Legal s.params) :
    (s.emit e).OutputLegal := by
  intro x hx
  obtain hx | rfl : x ∈ s.output ∨ x = e := by simpa using hx
  · exact hs x hx
  · exact he

/-- Fault entry emits a FAULT with its cause and the line index (R126). -/
theorem State.raise_outputLegal {s : State} {c : Cause} (hc : c ≠ .none) (hs : s.OutputLegal)
    (hidx : s.lineIdx ≤ s.params.cntMax) : (s.raise c).OutputLegal :=
  State.emit_outputLegal (s := { s with phase := .faulted, cause := c }) hs ⟨hc, hidx⟩

/-! ## The events of EOL -/

/-- A malformed data line is reported with cause 2 or 3, and may fault with the same one (R97, R134). -/
theorem State.malformedLine_outputLegal {s : State} {c : Cause} (hs : s.OutputLegal)
    (hidx : s.lineIdx ≤ s.params.cntMax) (h0 : s.lineIdx ≠ 0)
    (hc : c = .malformedNoDelimiter ∨ c = .malformedBadInteger) : (s.malformedLine c).OutputLegal := by
  have hreport : (s.emit (.malformed s.lineIdx c)).OutputLegal :=
    State.emit_outputLegal hs ⟨Nat.one_le_iff_ne_zero.2 h0, hidx, hc⟩
  obtain ⟨-, e⟩ | ⟨-, e⟩ := s.malformedLine_cases c <;> rw [e]
  · exact hreport
  · exact State.raise_outputLegal (by obtain rfl | rfl := hc <;> exact nofun) hreport hidx

/-- The comparison emits a MISMATCH only for differing values, and EXP is at its ceiling where it is clipped (R96, R24). -/
theorem State.judgeChecksum_outputLegal {s : State} (hs : s.OutputLegal) (hidx : s.lineIdx ≤ s.params.cntMax)
    (h0 : s.lineIdx ≠ 0) (hexp : s.exp ≤ s.params.expMax) (hclip : s.ClippedAtCeiling) :
    s.judgeChecksum.OutputLegal := by
  obtain ⟨-, e⟩ | ⟨hne, e⟩ := s.judgeChecksum_cases <;> rw [e]
  · exact hs
  · exact State.emit_outputLegal (s := s.countFailed) hs
      ⟨Nat.one_le_iff_ne_zero.2 h0, hidx, hexp, hne, fun ho => (hclip ho).1⟩

/-- A well-formed data line is reported before it is compared (R96). -/
theorem State.dataLine_outputLegal {s : State} (hs : s.OutputLegal) (hidx : s.lineIdx ≤ s.params.cntMax)
    (h0 : s.lineIdx ≠ 0) (hexp : s.exp ≤ s.params.expMax) (hclip : s.ClippedAtCeiling) :
    s.dataLine.OutputLegal := by
  have hreport : (s.emit (.progress s.lineIdx)).OutputLegal :=
    State.emit_outputLegal hs ⟨Nat.one_le_iff_ne_zero.2 h0, hidx⟩
  exact State.judgeChecksum_outputLegal hreport hidx h0 hexp hclip

/-- EOL in phase RUN, in the order of its tests (R94). -/
theorem State.eolInRun_outputLegal {s : State} (hinv : s.Inv) (hs : s.OutputLegal) : s.eolInRun.OutputLegal := by
  obtain ⟨⟨-, -, -, -, -, -, hclip, -⟩, hexp, hidx, -⟩ := hinv
  obtain ⟨-, e⟩ | ⟨-, -, e⟩ | ⟨-, h0, -, e⟩ | ⟨-, h0, -, -, e⟩ | ⟨-, h0, -, -, -, e⟩ := s.eolInRun_cases <;> rw [e]
  · exact State.raise_outputLegal nofun hs hidx
  · exact State.emit_outputLegal hs rfl
  · exact State.malformedLine_outputLegal hs hidx h0 (.inl rfl)
  · exact State.malformedLine_outputLegal hs hidx h0 (.inr rfl)
  · exact State.dataLine_outputLegal hs hidx h0 hexp hclip

/-! ## The events of a step -/

/-- The counters of SUMMARY are in range (R62, R101). -/
theorem State.summary_legal {s : State} (hinv : s.Inv) :
    Event.Legal s.params (.summary s.checked s.failed s.skipped) := by
  obtain ⟨-, hchecked, -, hskipped⟩ := hinv.counters_le
  obtain ⟨⟨-, -, hfailed, -⟩, -⟩ := hinv
  exact ⟨hchecked, hfailed, hskipped⟩

theorem exec_outputLegal {i : Instr} {s t : State} (h : exec i s = .next t) (hinv : s.Inv) (hs : s.OutputLegal) :
    t.OutputLegal := by
  obtain ⟨hidx, -⟩ := hinv.counters_le
  obtain ⟨e, -⟩ | ⟨e, -, -⟩ | ⟨-, -, e⟩ | ⟨d, -, -, e⟩ | ⟨-, -, e⟩ | ⟨-, -, -, e⟩ | ⟨-, -, e⟩ := exec_cases h <;>
    rw [e]
  · exact State.raise_outputLegal nofun hs hidx
  · exact hs
  · exact State.emit_outputLegal hs trivial
  · simpa [State.OutputLegal, State.charInRun_eq] using hs
  · exact State.eolInRun_outputLegal hinv hs
  · exact State.emit_outputLegal hs (State.summary_legal hinv)
  · exact State.raise_outputLegal nofun hs hidx

theorem State.acceptReserved_outputLegal {s : State} (hinv : s.Inv) (hs : s.OutputLegal) :
    s.acceptReserved.OutputLegal := by
  obtain ⟨hidx, -⟩ := hinv.counters_le
  obtain ⟨-, e⟩ | ⟨-, e⟩ := s.acceptReserved_cases <;> rw [e]
  · exact State.raise_outputLegal nofun hs hidx
  · exact hs

/-- Settles O45: bit steps, a quiet host and a reset emit nothing; a word emits what its command does. -/
theorem emittedEventsAreLegal : Obligations.EmittedEventsAreLegal := by
  intro s t hinv hs h
  obtain ⟨-, rfl⟩ | ⟨-, -, rfl⟩ | ⟨rest, -, -, rfl⟩ | ⟨w, rest, r, -, -, -, rfl⟩ | ⟨w, rest, i, -, -, -, h⟩ :=
    step_cases h
  · simpa [State.OutputLegal] using hs
  · exact hs
  · exact hs
  · exact State.acceptReserved_outputLegal (s := s.withInput rest) hinv hs
  · exact exec_outputLegal h hinv hs

end Sys2Proof.Machine
end

section
/-!
The laws of the Checksum Engine (40_crc_engine.md R70 to R82): BITSTEP and the map F bit by bit; from these the merge law
and F as a linear bijection; BYTESTEP as eight F on the XOR of its operands; and from that every law of T and COMPUTE.
-/

namespace Sys2Proof.Machine

/-! ## BITSTEP and F, bit by bit -/

/-- The test for a set low bit that R70 and R76 write with AND. -/
theorem and_one_beq_one (x : Byte) : (x &&& 1 == 1) = x.getLsbD 0 := by
  have h : x &&& 1 = (BitVec.ofBool (x.getLsbD 0)).setWidth 8 := BitVec.and_one_eq_setWidth_ofBool_getLsbD
  rw [h]
  cases x.getLsbD 0 <;> rfl

theorem feedback_eq (acc b : Byte) : feedback acc b = (acc.getLsbD 0 ^^ b.getLsbD 0) := by
  rw [feedback, and_one_beq_one, BitVec.getLsbD_xor, Bool.xor_comm]

/-- What BITSTEP and F XOR in: POLY under a condition, bit by bit. -/
theorem getLsbD_ite_poly (c : Bool) (i : Nat) : (if c then poly else 0x00).getLsbD i = (c && poly.getLsbD i) := by
  cases c <;> simp

theorem poly_getLsbD_seven : poly.getLsbD 7 = true := rfl

theorem bitStep_fst (acc b : Byte) : (bitStep acc b).1 = acc >>> 1 ^^^ (if feedback acc b then poly else 0x00) := by
  cases h : feedback acc b <;> simp [bitStep, h]

theorem bitStep_fst_getLsbD (acc b : Byte) (i : Nat) :
    (bitStep acc b).1.getLsbD i = (acc.getLsbD (i + 1) ^^ (feedback acc b && poly.getLsbD i)) := by
  rw [bitStep_fst, BitVec.getLsbD_xor, getLsbD_ite_poly, BitVec.getLsbD_ushiftRight, Nat.add_comm]

theorem bitStep_snd (acc b : Byte) : (bitStep acc b).2 = b >>> 1 := rfl

theorem bitStep_snd_getLsbD (acc b : Byte) (i : Nat) : (bitStep acc b).2.getLsbD i = b.getLsbD (i + 1) := by
  rw [bitStep_snd, BitVec.getLsbD_ushiftRight, Nat.add_comm]

theorem mergedStep_getLsbD (s : Byte) (i : Nat) :
    (mergedStep s).getLsbD i = (s.getLsbD (i + 1) ^^ (s.getLsbD 0 && poly.getLsbD i)) := by
  rw [mergedStep, and_one_beq_one, BitVec.getLsbD_xor, getLsbD_ite_poly, BitVec.getLsbD_ushiftRight, Nat.add_comm]

/-- Settles O26: bit 7 of the old accumulator's shift is 0 and bit 7 of POLY is 1, so bit 7 is the feedback. -/
theorem bitStepShiftsAndFeedsBack : Obligations.BitStepShiftsAndFeedsBack := by
  intro acc b
  refine ⟨fun i _ => ⟨?_, bitStep_snd_getLsbD acc b i⟩, ?_, ?_⟩
  · rw [bitStep_fst_getLsbD, feedback_eq, poly]
  · rw [bitStep_fst_getLsbD, feedback_eq, poly_getLsbD_seven, Bool.and_true, BitVec.getLsbD_of_ge acc 8 (Nat.le_refl 8),
      Bool.false_xor]
  · rw [bitStep_snd_getLsbD, BitVec.getLsbD_of_ge b 8 (Nat.le_refl 8)]

/-! ## The merge law -/

/-- The merge law for one bit step: only the XOR of the operands matters (R76). -/
theorem bitStep_merge (acc b : Byte) : (bitStep acc b).1 ^^^ (bitStep acc b).2 = mergedStep (acc ^^^ b) := by
  have hfb : feedback acc b = ((acc ^^^ b) &&& 1 == 1) := by rw [feedback, BitVec.xor_comm]
  rw [bitStep_fst, bitStep_snd, mergedStep, ← hfb, BitVec.ushiftRight_xor_distrib]
  ac_rfl

theorem bitSteps_merge (n : Nat) (acc b : Byte) :
    (bitSteps n acc b).1 ^^^ (bitSteps n acc b).2 = mergedStep^[n] (acc ^^^ b) := by
  induction n with
  | zero => rfl
  | succ n ih => rw [bitSteps_succ_last, bitStep_merge, ih, Function.iterate_succ_apply']

/-- After eight bit steps nothing is left of the byte. -/
theorem bitSteps_eight_snd (acc b : Byte) : (bitSteps 8 acc b).2 = 0x00 :=
  (bitSteps_snd 8 acc b).trans (BitVec.ushiftRight_eq_zero (Nat.le_refl 8))

/-- The merge law for a whole byte (R76). -/
theorem byteStep_eq_iterate (acc b : Byte) : byteStep acc b = mergedStep^[8] (acc ^^^ b) := by
  simp [← bitSteps_merge, bitSteps_eight_snd, byteStep]

/-- Settles O27: the eight bit steps merge one by one, and the byte is used up. -/
theorem bitStepMergesOperands : Obligations.BitStepMergesOperands :=
  fun acc b => ⟨bitStep_merge acc b, byteStep_eq_iterate acc b⟩

/-! ## The table law -/

/-- An entry of the table is eight times F (R77). -/
theorem crcTable_eq_iterate : crcTable = mergedStep^[8] := by
  funext x
  exact (byteStep_eq_iterate 0x00 x).trans (congrArg _ BitVec.zero_xor)

/-- The table law (R77). -/
theorem byteStep_eq_crcTable (acc b : Byte) : byteStep acc b = crcTable (acc ^^^ b) := by
  rw [byteStep_eq_iterate, crcTable_eq_iterate]

/-- Settles O28: the fold of BYTESTEP is the fold of the lookup, since the two agree at every byte. -/
theorem byteStepIsTableLookup : Obligations.ByteStepIsTableLookup :=
  ⟨byteStep_eq_crcTable, fun _ => List.foldl_ext _ _ crcInit fun acc b _ => byteStep_eq_crcTable acc b⟩

/-! ## The bijection law -/

/-- Bit 7 of POLY is set, so F keeps the bit shifted out in bit 7 (R78). -/
theorem mergedStep_getLsbD_seven (s : Byte) : (mergedStep s).getLsbD 7 = s.getLsbD 0 := by
  rw [mergedStep_getLsbD, poly_getLsbD_seven, Bool.and_true, BitVec.getLsbD_of_ge s 8 (Nat.le_refl 8), Bool.false_xor]

/-- The inverse of F takes POLY off again and shifts back (R78). -/
theorem mergedStep_undo_getLsbD (s : Byte) (i : Nat) :
    (mergedStep s ^^^ (if (mergedStep s).getLsbD 7 then poly else 0x00)).getLsbD i = s.getLsbD (i + 1) := by
  rw [BitVec.getLsbD_xor, getLsbD_ite_poly, mergedStep_getLsbD_seven, mergedStep_getLsbD, Bool.xor_assoc, Bool.xor_self,
    Bool.xor_false]

theorem mergedStep_injective : Function.Injective mergedStep := by
  intro s t h
  refine BitVec.eq_of_getLsbD_eq fun i _ => ?_
  cases i with
  | zero => rw [← mergedStep_getLsbD_seven s, h, mergedStep_getLsbD_seven]
  | succ i => rw [← mergedStep_undo_getLsbD s, h, mergedStep_undo_getLsbD]

theorem mergedStep_bijective : Function.Bijective mergedStep := mergedStep_injective.bijective_of_finite

theorem crcTable_bijective : Function.Bijective crcTable := crcTable_eq_iterate ▸ mergedStep_bijective.iterate 8

theorem xor_left_bijective (acc : Byte) : Function.Bijective fun b => acc ^^^ b :=
  Function.Involutive.bijective fun b => by rw [← BitVec.xor_assoc, BitVec.xor_self, BitVec.zero_xor]

theorem byteStep_bijective_right (acc : Byte) : Function.Bijective fun b => byteStep acc b := by
  simp only [byteStep_eq_crcTable]
  exact crcTable_bijective.comp (xor_left_bijective acc)

/-- BYTESTEP is symmetric: only the XOR of its operands matters (R76). -/
theorem byteStep_comm (acc b : Byte) : byteStep acc b = byteStep b acc := by
  rw [byteStep_eq_crcTable, byteStep_eq_crcTable, BitVec.xor_comm]

theorem byteStep_bijective_left (b : Byte) : Function.Bijective fun acc => byteStep acc b := by
  simp only [byteStep_comm _ b]
  exact byteStep_bijective_right b

theorem crcTable_zero : crcTable 0x00 = 0x00 := by
  have hF : mergedStep 0x00 = 0x00 := rfl
  rw [crcTable_eq_iterate, Function.iterate_fixed hF]

/-- Settles O29: the inverse of F makes F a bijection, T is F eight times, and BYTESTEP is T after an XOR. -/
theorem byteStepIsBijective : Obligations.ByteStepIsBijective :=
  ⟨fun s => ⟨(mergedStep_getLsbD_seven s).symm, fun i _ => (mergedStep_undo_getLsbD s i).symm⟩,
    mergedStep_bijective, crcTable_bijective, byteStep_bijective_left, byteStep_bijective_right, crcTable_zero⟩

/-! ## Linearity -/

theorem mergedStep_xor (x y : Byte) : mergedStep (x ^^^ y) = mergedStep x ^^^ mergedStep y := by
  refine BitVec.eq_of_getLsbD_eq fun i _ => ?_
  simp only [BitVec.getLsbD_xor, mergedStep_getLsbD, Bool.and_xor_distrib_right, Bool.xor_assoc, Bool.xor_left_comm]

theorem crcTable_xor (x y : Byte) : crcTable (x ^^^ y) = crcTable x ^^^ crcTable y := by
  rw [crcTable_eq_iterate]
  exact Function.Semiconj₂.iterate mergedStep_xor 8 x y

/-- BYTESTEP is linear in both operands together. -/
theorem byteStep_xor (a c x y : Byte) : byteStep (a ^^^ c) (x ^^^ y) = byteStep a x ^^^ byteStep c y := by
  simp only [byteStep_eq_crcTable, ← crcTable_xor]
  ac_rfl

/-- Linearity of the fold from any two accumulators, which is what the induction on the payloads needs (R79). -/
theorem foldl_byteStep_xor {p q : List Byte} (h : p.length = q.length) (a c : Byte) :
    (List.zipWith (fun x y => x ^^^ y) p q).foldl byteStep (a ^^^ c) = p.foldl byteStep a ^^^ q.foldl byteStep c := by
  induction p generalizing q a c with
  | nil =>
    obtain rfl := List.eq_nil_of_length_eq_zero h.symm
    rfl
  | cons x p ih =>
    obtain ⟨y, q, rfl⟩ := List.exists_cons_of_length_eq_add_one h.symm
    rw [List.zipWith_cons_cons, List.foldl_cons, byteStep_xor, ih (Nat.succ.inj h), List.foldl_cons, List.foldl_cons]

/-- Settles O30: both folds start from INIT, which is the XOR of INIT with itself. -/
theorem checksumIsLinear : Obligations.ChecksumIsLinear :=
  ⟨mergedStep_xor, crcTable_xor, fun _ _ h => foldl_byteStep_xor h crcInit crcInit⟩

/-! ## What the checksum detects -/

/-- Accumulators that differ stay different through every later byte (R79). -/
theorem foldl_byteStep_injective (q : List Byte) : Function.Injective fun acc => q.foldl byteStep acc := by
  induction q with
  | nil => exact Function.injective_id
  | cons b q ih => exact ih.comp (byteStep_bijective_left b).injective

/-- Settles O31: the two accumulators differ after the byte changed, and stay different through the rest. -/
theorem oneByteChangeIsDetected : Obligations.OneByteChangeIsDetected := by
  intro p q x y hxy h
  rw [compute_append, compute_append, List.foldl_cons, List.foldl_cons] at h
  have hacc : byteStep (compute p) x = byteStep (compute p) y := foldl_byteStep_injective q h
  exact hxy ((byteStep_bijective_right (compute p)).injective hacc)

theorem byteStep_self (x : Byte) : byteStep x x = crcTable 0x00 :=
  (byteStep_eq_crcTable x x).trans (congrArg crcTable BitVec.xor_self)

/-- Settles O32: the last byte step folds the checksum into itself. -/
theorem checksumOfItselfIsZero : Obligations.ChecksumOfItselfIsZero :=
  ⟨byteStep_self, crcTable_zero, fun p => by rw [compute_concat, byteStep_self, crcTable_zero]⟩

/-! ## The hidden registers -/

/-- The byte of a CHAR is done after exactly the eight bit steps that follow its acceptance (R82). -/
theorem State.charInRun_eq_iterate (s : State) (d : Byte) : s.charInRun d = State.engineTick^[8] (s.acceptChar d) := by
  have hrest : (State.engineTick^[8] (s.acceptChar d)).busy = false := by
    rw [State.acceptChar, State.engineTick_iterate_eight_loadEngine]
  rw [← s.finishByte_iterate_acceptChar d (Nat.le_refl 8), State.finishByte_of_rest _ hrest]

/-- Settles O33: the engine up to the eighth tick, at the eighth, and the whole CHAR as these eight. -/
theorem engineTakesEightBitSteps : Obligations.EngineTakesEightBitSteps :=
  fun s d => ⟨fun _ hk => s.engineTick_iterate_loadEngine d hk, s.engineTick_iterate_eight_loadEngine d,
    s.charInRun_eq_iterate d⟩

end Sys2Proof.Machine
end

section
/-!
The reference functions of the line validator (41_line_commands.md R90 to R92, R100, R102; 30_encoding.md R64): what
SPLIT does with one byte more in front and one byte more at the end, the number a string of digits spells, the verdicts
of VALIDATE_LINE, and the saturating accumulation as that number clipped.
-/

namespace Sys2Proof.Machine

/-! ## SPLIT -/

theorem splitLine_cons_of_some {rest payload trailing : List Byte} (b : Byte)
    (h : splitLine rest = some (payload, trailing)) : splitLine (b :: rest) = some (b :: payload, trailing) := by
  simp [splitLine, h]

theorem splitLine_cons_of_none {rest : List Byte} (b : Byte) (h : splitLine rest = none) :
    splitLine (b :: rest) = if b = delim then some ([], rest) else none := by
  simp [splitLine, h]

theorem splitLine_eq_none_iff (line : List Byte) : splitLine line = none ↔ delim ∉ line := by
  induction line with
  | nil => simp [splitLine]
  | cons b rest ih =>
    cases h : splitLine rest with
    | none =>
      have hrest : delim ∉ rest := ih.1 h
      simp [splitLine_cons_of_none b h, hrest, eq_comm]
    | some parts =>
      have hrest : delim ∈ rest := by
        by_contra hmem
        exact absurd (h.symm.trans (ih.2 hmem)) nofun
      simp [splitLine_cons_of_some b h, hrest]

/-- A delimiter with none after it is where SPLIT parts the line. -/
theorem splitLine_append_delim (payload : List Byte) {trailing : List Byte} (h : delim ∉ trailing) :
    splitLine (payload ++ delim :: trailing) = some (payload, trailing) := by
  induction payload with
  | nil => simp [splitLine_cons_of_none delim ((splitLine_eq_none_iff trailing).2 h)]
  | cons b payload ih => exact splitLine_cons_of_some b ih

theorem eq_append_delim_of_splitLine {line payload trailing : List Byte}
    (h : splitLine line = some (payload, trailing)) : line = payload ++ delim :: trailing ∧ delim ∉ trailing := by
  induction line generalizing payload with
  | nil => exact absurd h nofun
  | cons b rest ih =>
    cases hrest : splitLine rest with
    | none =>
      rw [splitLine_cons_of_none b hrest] at h
      split at h
      · next hb =>
        obtain ⟨rfl, rfl⟩ : [] = payload ∧ rest = trailing := by simpa using h
        exact ⟨by rw [hb, List.nil_append], (splitLine_eq_none_iff rest).1 hrest⟩
      · exact absurd h nofun
    | some parts =>
      obtain ⟨before, after⟩ := parts
      rw [splitLine_cons_of_some b hrest] at h
      obtain ⟨rfl, rfl⟩ : b :: before = payload ∧ after = trailing := by simpa using h
      obtain ⟨rfl, hafter⟩ := ih hrest
      exact ⟨rfl, hafter⟩

theorem splitLine_eq_some_iff (line payload trailing : List Byte) :
    splitLine line = some (payload, trailing) ↔ line = payload ++ delim :: trailing ∧ delim ∉ trailing :=
  ⟨eq_append_delim_of_splitLine, fun ⟨h, hmem⟩ => h ▸ splitLine_append_delim payload hmem⟩

/-- Settles O34. -/
theorem splitIsAtLastDelimiter : Obligations.SplitIsAtLastDelimiter :=
  fun line => ⟨splitLine_eq_none_iff line, splitLine_eq_some_iff line⟩

/-- A delimiter received last restarts the trailing field (R90, R93). -/
theorem splitLine_concat_delim (line : List Byte) : splitLine (line ++ [delim]) = some (line, []) :=
  splitLine_append_delim line List.not_mem_nil

/-- Any other byte received last joins the trailing field, where there is one (R90, R93). -/
theorem splitLine_concat_of_ne {d : Byte} (hd : d ≠ delim) (line : List Byte) :
    splitLine (line ++ [d]) = (splitLine line).map fun parts => (parts.1, parts.2 ++ [d]) := by
  cases h : splitLine line with
  | none =>
    have hmem : delim ∉ line := (splitLine_eq_none_iff line).1 h
    exact (splitLine_eq_none_iff _).2 (by simp [hmem, hd.symm])
  | some parts =>
    obtain ⟨rfl, hmem⟩ := eq_append_delim_of_splitLine h
    exact (splitLine_eq_some_iff _ _ _).2 ⟨by simp, by simp [hmem, hd.symm]⟩

/-! ## The number spelled -/

@[simp] theorem decimalValue_nil : decimalValue [] = 0 := rfl

theorem decimalValue_concat (t : List Byte) (d : Byte) :
    decimalValue (t ++ [d]) = appendDigit (decimalValue t) d := by
  simp [decimalValue]

/-- Every digit weighs the power of ten of the number of digits after it, and what stands before all of them the next
power (R64). -/
theorem foldl_appendDigit_eq_sum (n : Nat) (t : List Byte) :
    t.foldl appendDigit n =
      n * 10 ^ t.length + ∑ i : Fin t.length, digitValue (t.get i) * 10 ^ (t.length - 1 - i) := by
  induction t generalizing n with
  | nil => simp
  | cons d t ih =>
    have hplace (i : Fin t.length) : t.length - (i + 1) = t.length - 1 - i := by omega
    rw [List.foldl_cons, ih]
    simp [Fin.sum_univ_succ, appendDigit, hplace, pow_succ]
    ring

theorem decimalValue_eq_sum (t : List Byte) :
    decimalValue t = ∑ i : Fin t.length, digitValue (t.get i) * 10 ^ (t.length - 1 - i) := by
  rw [decimalValue, foldl_appendDigit_eq_sum, Nat.zero_mul, Nat.zero_add]

/-- A leading zero does not change the number (R102). -/
theorem decimalValue_zero_cons (t : List Byte) : decimalValue (digitLo :: t) = decimalValue t := rfl

/-! ## PARSEDEC -/

theorem parseDec_eq_ite (t : List Byte) :
    parseDec t =
      if t ≠ [] ∧ ∀ c ∈ t, 0x30 ≤ c.toNat ∧ c.toNat ≤ 0x39 then some (decimalValue t) else none := by
  simp only [parseDec, List.all_eq_true, isDigit_iff]

/-- Settles O35. -/
theorem parseDecReadsDecimalNumeral : Obligations.ParseDecReadsDecimalNumeral := by
  intro t
  rw [parseDec_eq_ite, decimalValue_eq_sum]
  rfl

/-- A trailing field is no number exactly where EOL finds HASDIG 0 or BADCH 1 (R91, R23). -/
theorem parseDec_eq_none_iff (t : List Byte) :
    parseDec t = none ↔ t.any isDigit = false ∨ t.any (fun b => !isDigit b) = true := by
  cases t with
  | nil => simp [parseDec]
  | cons b t => cases hb : isDigit b <;> simp [parseDec, hb]

/-- In a number every byte is a digit, so its digits spell it (R91). -/
theorem decimalValue_digitsOf_of_parseDec {t : List Byte} {n : Nat} (h : parseDec t = some n) :
    decimalValue (digitsOf t) = n := by
  obtain ⟨⟨-, hall⟩, rfl⟩ : (t ≠ [] ∧ t.all isDigit = true) ∧ decimalValue t = n := by simpa [parseDec] using h
  rw [digitsOf, List.filter_eq_self.2 (List.all_eq_true.1 hall)]

/-! ## VALIDATE_LINE -/

theorem validateLine_of_noDelimiter {line : List Byte} (h : splitLine line = none) :
    validateLine line = .malformedNoDelimiter := by
  simp [validateLine, h]

section
variable {line payload trailing : List Byte} (hsplit : splitLine line = some (payload, trailing))
include hsplit

theorem validateLine_of_badInteger (h : parseDec trailing = none) : validateLine line = .malformedBadInteger := by
  simp [validateLine, hsplit, h]

theorem validateLine_of_agree {n : Nat} (h : parseDec trailing = some n) (heq : n = (compute payload).toNat) :
    validateLine line = .pass n (compute payload) := by
  simp [validateLine, hsplit, h, heq]

theorem validateLine_of_differ {n : Nat} (h : parseDec trailing = some n) (hne : n ≠ (compute payload).toNat) :
    validateLine line = .fail n (compute payload) := by
  simp [validateLine, hsplit, h, hne.symm]

end

/-! ## The saturating accumulation -/

/-- Clipping before a digit is appended does not change the clipped number after it (R100). -/
theorem accumulateDigit_min (p : Params) (n : Nat) (d : Byte) :
    accumulateDigit p (min n p.expMax) d = min (appendDigit n d) p.expMax := by
  unfold accumulateDigit appendDigit
  omega

/-- EXP_OVF says after every digit whether the number so far is above the ceiling (R24). -/
theorem overflowAfter_min (p : Params) (n : Nat) (d : Byte) :
    overflowAfter p (decide (p.expMax < n)) (min n p.expMax) d = decide (p.expMax < appendDigit n d) := by
  rw [Bool.eq_iff_iff, overflowAfter_iff, decide_eq_true_eq, decide_eq_true_eq]
  unfold appendDigit
  omega

/-- Settles O36, one digit more at a time. -/
theorem expectedValueSaturates : Obligations.ExpectedValueSaturates := by
  intro p digits
  induction digits using List.reverseRecOn with
  | nil => simp
  | append_singleton digits d ih =>
    rw [List.foldl_concat, ih, decimalValue_concat]
    exact Prod.ext (accumulateDigit_min p _ d) (overflowAfter_min p _ d)

/-! ## The comparison -/

/-- Because `EXP_W >= 9`, the ceiling of EXP is above every checksum (R102, R7). -/
theorem byte_lt_expMax {p : Params} (h : p.valid) (a : Byte) : a.toNat < p.expMax := by
  have hpow : 2 ^ 9 ≤ 2 ^ p.expW := Nat.pow_le_pow_right (by decide) h.1
  have ha : a.toNat < 2 ^ 8 := a.isLt
  show a.toNat < 2 ^ p.expW - 1
  omega

/-- The clipped number differs from a checksum exactly where the number does (R102). -/
theorem min_expMax_eq_byte_iff {p : Params} (h : p.valid) (n : Nat) (a : Byte) :
    min n p.expMax = a.toNat ↔ n = a.toNat := by
  have ha := byte_lt_expMax h a
  omega

/-- Settles O37. -/
theorem clippedComparisonIsExact : Obligations.ClippedComparisonIsExact :=
  ⟨fun _ n a h => not_congr (min_expMax_eq_byte_iff h n a), decimalValue_zero_cons⟩

end Sys2Proof.Machine
end

section
/-!
The line commands in phase RUN, one equation per case (41_line_commands.md R93 to R98): CHAR for every byte, and what
EOL makes of the header line, of a well-formed data line and of a malformed one.
-/

namespace Sys2Proof.Machine

/-! ## CHAR -/

/-- The word of CHAR: `op` is `0b010` and the operand stands below it (R50, R51). -/
theorem encode_char (d : Byte) : encode (.char d) = 0x200 + d.setWidth 11 := by
  have happend : encode (.char d) = 0b010#3 ++ d := rfl
  have hd : d.toNat < 2 ^ 8 := d.isLt
  apply BitVec.eq_of_toNat_eq
  rw [happend, BitVec.toNat_append, ← Nat.shiftLeft_add_eq_or_of_lt hd]
  simp
  omega

/-- Settles O17: the scan of the byte, case by case, and then the eight bit steps. -/
theorem charFoldsAndScansByte : Obligations.CharFoldsAndScansByte := by
  refine fun s d => ⟨encode_char d, fun hrun => ?_⟩
  rw [exec_char_of_run d hrun, State.charInRun_eq]
  simp only [← isDigit_iff]
  obtain ⟨rfl, e⟩ | ⟨hdig, hs, e⟩ | ⟨hd, hdig, hs, e⟩ | ⟨hd, hs, e⟩ := s.scanByte_cases d <;> rw [e]
  · rfl
  · have hd : d ≠ 0x2C := by rintro rfl; exact absurd hdig (by decide)
    have hdigit : s.seen = true ∧ isDigit d = true := ⟨hs, hdig⟩
    have hother : ¬(s.seen = true ∧ ¬isDigit d = true) := fun h => h.2 hdig
    simp only [if_neg hd, if_pos hdigit, if_neg hother]
    rfl
  · have hdigit : ¬(s.seen = true ∧ isDigit d = true) := by simp [hdig]
    have hother : s.seen = true ∧ ¬isDigit d = true := by simp [hs, hdig]
    simp only [if_neg (show d ≠ 0x2C from hd), if_neg hdigit, if_pos hother]
    rfl
  · have hunseen (P : Prop) : ¬(s.seen = true ∧ P) := by simp [hs]
    simp only [if_neg (show d ≠ 0x2C from hd), if_neg (hunseen _)]
    rfl

/-! ## EOL -/

/-- The per-line registers at 0, as a line begins (R34, R98). -/
def State.clearLine (s : State) : State :=
  { s with
    acc := 0x00, snap := 0x00, exp := 0, seen := false, hasDig := false, badCh := false, expOvf := false,
    dirty := false }

/-- Closing a line is clearing it and counting it (R98). -/
theorem State.closeLine_eq (s : State) : s.closeLine = { s.clearLine with lineIdx := s.lineIdx + 1 } := rfl

theorem exec_eol_of_run {s : State} (hp : s.phase = .run) : exec .eol s = .next s.eolInRun := by
  simp [exec, execEol, hp]

section
variable {s : State} (hroom : s.lineIdx ≠ s.params.cntMax)
include hroom

theorem State.eolInRun_of_header (hidx : s.lineIdx = 0) : s.eolInRun = s.headerLine := by
  obtain ⟨h, -⟩ | ⟨-, -, e⟩ | ⟨-, h, -⟩ | ⟨-, h, -⟩ | ⟨-, h, -⟩ := s.eolInRun_cases
  · exact absurd h hroom
  · exact e
  all_goals exact absurd hidx h

variable (hidx : s.lineIdx ≠ 0)
include hidx

theorem State.eolInRun_of_noDelimiter (hseen : s.seen = false) :
    s.eolInRun = s.malformedLine .malformedNoDelimiter := by
  simp [State.eolInRun, State.eolCase, State.lineIdxFull, hroom, hidx, hseen]

theorem State.eolInRun_of_badInteger (hseen : s.seen = true) (hbad : s.hasDig = false ∨ s.badCh = true) :
    s.eolInRun = s.malformedLine .malformedBadInteger := by
  simp [State.eolInRun, State.eolCase, State.lineIdxFull, State.badTrailing, hroom, hidx, hseen, hbad]

theorem State.eolInRun_of_wellFormed (hseen : s.seen = true) (hdig : s.hasDig = true) (hbad : s.badCh = false) :
    s.eolInRun = s.dataLine := by
  simp [State.eolInRun, State.eolCase, State.lineIdxFull, State.badTrailing, hroom, hidx, hseen, hdig, hbad]

end

/-- A checksum that agrees: PROGRESS, one line more checked, and the line closed (R96, R98). -/
theorem State.dataLine_of_agree {s : State} (h : s.exp = s.snap.toNat) :
    s.dataLine =
      { s.clearLine with
        lineIdx := s.lineIdx + 1, checked := s.checked + 1, output := s.output ++ [.progress s.lineIdx] } := by
  obtain ⟨-, e⟩ | ⟨hne, -⟩ := (s.emit (.progress s.lineIdx)).judgeChecksum_cases
  · rw [State.dataLine, e]
    rfl
  · exact absurd h hne

/-- A checksum that differs: PROGRESS and MISMATCH, one line more checked and failed, and the line closed (R96, R98). -/
theorem State.dataLine_of_differ {s : State} (h : s.exp ≠ s.snap.toNat) :
    s.dataLine =
      { s.clearLine with
        lineIdx := s.lineIdx + 1, checked := s.checked + 1, failed := s.failed + 1,
        output := s.output ++ [.progress s.lineIdx, .mismatch s.lineIdx s.exp s.expOvf s.snap] } := by
  obtain ⟨heq, -⟩ | ⟨-, e⟩ := (s.emit (.progress s.lineIdx)).judgeChecksum_cases
  · exact absurd heq h
  · rw [State.dataLine, e, State.closeLine_eq]
    simp [State.reportMismatch, State.countFailed, State.countChecked, State.clearLine, State.emit]

/-- Under policy SKIP a malformed line is reported, counted and closed (R97, R98). -/
theorem State.malformedLine_eq_of_skip {s : State} (c : Cause) (h : s.params.policy = .skip) :
    s.malformedLine c =
      { s.clearLine with
        lineIdx := s.lineIdx + 1, skipped := s.skipped + 1, output := s.output ++ [.malformed s.lineIdx c] } := by
  rw [s.malformedLine_skip c h]
  rfl

/-- Under policy FATAL a malformed line is reported and the fault is entered, with the line's registers kept (R97). -/
theorem State.malformedLine_eq_of_fatal {s : State} (c : Cause) (h : s.params.policy = .fatal) :
    s.malformedLine c =
      { s with
        phase := .faulted, cause := c,
        output := s.output ++ [.malformed s.lineIdx c, .fault c s.lineIdx] } := by
  rw [s.malformedLine_fatal c h]
  simp [State.raise, State.emit]

/-- Settles O18. -/
theorem eolReportsHeader : Obligations.EolReportsHeader := by
  intro s hrun hidx hroom
  rw [exec_eol_of_run hrun, State.eolInRun_of_header hroom hidx, State.headerLine, State.closeLine_eq,
    State.emit_lineIdx, hidx]
  rfl

/-- Settles O19: the two outcomes of the comparison. -/
theorem eolChecksDataLine : Obligations.EolChecksDataLine := by
  intro s hrun hidx hroom hseen hdig hbad
  rw [exec_eol_of_run hrun, State.eolInRun_of_wellFormed hroom (by omega) hseen hdig hbad]
  by_cases h : s.exp = s.snap.toNat
  · rw [State.dataLine_of_agree h, if_neg (not_not_intro h), if_neg (not_not_intro h)]
    rfl
  · rw [State.dataLine_of_differ h, if_pos h, if_pos h]
    rfl

/-- Settles O20: both causes end in the same operation, and the policy chooses between its two ways out. -/
theorem eolTreatsMalformedLine : Obligations.EolTreatsMalformedLine := by
  refine ⟨rfl, rfl, fun s c hrun hidx hroom hcause => ?_⟩
  have hmalformed : s.eolInRun = s.malformedLine c := by
    obtain ⟨hseen, rfl⟩ | ⟨hseen, hbad, rfl⟩ := hcause
    · exact State.eolInRun_of_noDelimiter hroom (by omega) hseen
    · exact State.eolInRun_of_badInteger hroom (by omega) hseen hbad
  rw [exec_eol_of_run hrun, hmalformed]
  exact ⟨fun hpolicy => congrArg _ (State.malformedLine_eq_of_skip c hpolicy),
    fun hpolicy => congrArg _ (State.malformedLine_eq_of_fatal c hpolicy)⟩

end Sys2Proof.Machine
end

section
/-!
The line validator against its reference (41_line_commands.md R92, R99): each CHAR keeps the relation between the
registers and the line received so far, and from that EOL gives the verdict of VALIDATE_LINE.
-/

namespace Sys2Proof.Machine

/-! ## The relation of R99, taken apart -/

/-- The registers of the trailing field as they are before any delimiter. -/
abbrev State.FieldClear (s : State) : Prop :=
  s.seen = false ∧ s.snap = 0 ∧ s.exp = 0 ∧ s.hasDig = false ∧ s.badCh = false ∧ s.expOvf = false

/-- The registers of the trailing field for a line that SPLIT parts into these two. -/
abbrev State.TracksField (s : State) (payload trailing : List Byte) : Prop :=
  s.seen = true ∧ s.snap = compute payload ∧
  s.hasDig = trailing.any isDigit ∧
  s.badCh = trailing.any (fun b => !isDigit b) ∧
  s.exp = min (decimalValue (digitsOf trailing)) s.params.expMax ∧
  s.expOvf = decide (s.params.expMax < decimalValue (digitsOf trailing))

theorem State.tracks_iff (s : State) (line : List Byte) :
    s.Tracks line ↔ s.acc = compute line ∧ s.dirty = decide (0 < line.length) ∧
      (splitLine line = none ∧ s.FieldClear ∨
        ∃ payload trailing, splitLine line = some (payload, trailing) ∧ s.TracksField payload trailing) := by
  unfold State.Tracks
  cases splitLine line with
  | none => simp
  | some parts =>
    obtain ⟨payload, trailing⟩ := parts
    simp

theorem State.LineClear.tracks_nil {s : State} (h : s.LineClear) : s.Tracks [] := by
  obtain ⟨hacc, hsnap, hexp, hseen, hdig, hbad, hovf, hdirty⟩ := h
  exact (s.tracks_iff []).2 ⟨hacc, hdirty, .inl ⟨rfl, hseen, hsnap, hexp, hdig, hbad, hovf⟩⟩

/-! ## One byte more -/

theorem State.scanByte_fieldClear {s : State} {d : Byte} (hd : d ≠ delim) (h : s.FieldClear) :
    (s.scanByte d).FieldClear := by
  obtain ⟨hseen, -⟩ := id h
  obtain ⟨rfl, -⟩ | ⟨-, hs, -⟩ | ⟨-, -, hs, -⟩ | ⟨-, -, e⟩ := s.scanByte_cases d
  · exact absurd rfl hd
  · exact absurd (hs.symm.trans hseen) nofun
  · exact absurd (hs.symm.trans hseen) nofun
  · rwa [e]

/-- A delimiter restarts the trailing field, with the checksum of the bytes before it in SNAP (R93). -/
theorem State.scanByte_delim_tracksField {s : State} {line : List Byte} (h : s.acc = compute line) :
    (s.scanByte delim).TracksField line [] := by
  rw [State.scanByte_delim]
  exact ⟨rfl, h, rfl, rfl, (Nat.zero_min _).symm, rfl⟩

/-- A digit joins the number and any other byte spoils it, saturation included (R93, R100). -/
theorem State.scanByte_tracksField {s : State} {payload trailing : List Byte} {d : Byte} (hd : d ≠ delim)
    (h : s.TracksField payload trailing) : (s.scanByte d).TracksField payload (trailing ++ [d]) := by
  obtain ⟨hseen, hsnap, hdig, hbad, hexp, hovf⟩ := h
  obtain ⟨rfl, -⟩ | ⟨hdigit, -, e⟩ | ⟨-, hother, -, e⟩ | ⟨-, hs, -⟩ := s.scanByte_cases d
  · exact absurd rfl hd
  · have hdigits : digitsOf (trailing ++ [d]) = digitsOf trailing ++ [d] := by simp [digitsOf, hdigit]
    rw [e, State.TracksField, hdigits, decimalValue_concat]
    refine ⟨hseen, hsnap, ?_, ?_, ?_, ?_⟩
    · simp [hdigit]
    · simp [hdigit, hbad]
    · have hmin := accumulateDigit_min s.params (decimalValue (digitsOf trailing)) d
      rwa [← hexp] at hmin
    · have hmin := overflowAfter_min s.params (decimalValue (digitsOf trailing)) d
      rwa [← hexp, ← hovf] at hmin
  · have hdigits : digitsOf (trailing ++ [d]) = digitsOf trailing := by simp [digitsOf, hother]
    rw [e, State.TracksField, hdigits]
    exact ⟨hseen, hsnap, by simp [hother, hdig], by simp [hother], hexp, hovf⟩
  · exact absurd (hseen.symm.trans hs) nofun

/-- CHAR keeps the relation (R99, R93). -/
theorem State.charInRun_tracks {s : State} {line : List Byte} (d : Byte) (h : s.Tracks line) :
    (s.charInRun d).Tracks (line ++ [d]) := by
  obtain ⟨hacc, -, hfield⟩ := (s.tracks_iff line).1 h
  rw [State.charInRun_eq, State.tracks_iff]
  refine ⟨by rw [compute_concat, hacc], by simp, ?_⟩
  by_cases hd : d = delim
  · subst hd
    exact .inr ⟨line, [], splitLine_concat_delim line, State.scanByte_delim_tracksField hacc⟩
  · rw [splitLine_concat_of_ne hd]
    obtain ⟨hsplit, hclear⟩ | ⟨payload, trailing, hsplit, htracks⟩ := hfield <;> rw [hsplit]
    · exact .inl ⟨rfl, State.scanByte_fieldClear hd hclear⟩
    · exact .inr ⟨payload, trailing ++ [d], rfl, State.scanByte_tracksField hd htracks⟩

/-- With the engine at rest before it, CHAR moves nothing but the per-line registers (R93, R30). -/
theorem State.charInRun_clearLine {s : State} (d : Byte) (h : s.EngineAtRest) :
    (s.charInRun d).clearLine = s.clearLine := by
  obtain ⟨hshr, hcnt, hbusy⟩ := h
  simp [State.charInRun_eq, State.clearLine, hshr, hcnt, hbusy]

/-! ## A whole line -/

/-- The block in phase RUN after one CHAR for each of these bytes. -/
def State.receive (line : List Byte) (s : State) : State := line.foldl (fun t d => t.charInRun d) s

theorem State.receive_cons (d : Byte) (line : List Byte) (s : State) :
    s.receive (d :: line) = (s.charInRun d).receive line := by
  simp only [State.receive, List.foldl_cons]

theorem State.receive_concat (line : List Byte) (d : Byte) (s : State) :
    s.receive (line ++ [d]) = (s.receive line).charInRun d := by
  simp [State.receive]

/-- In phase RUN the words of a text are received byte by byte, and then the rest of the words follows (R59, R93). -/
theorem State.afterWords_textWords_append {s : State} (line : List Byte) (ws : List CmdWord) (hrun : s.phase = .run)
    (hb : s.busy = false) : s.afterWords (textWords line ++ ws) = (s.receive line).afterWords ws := by
  induction line generalizing s with
  | nil => rfl
  | cons d line ih =>
    obtain ⟨-, -, hb'⟩ := s.charInRun_engineAtRest d
    have hrun' : (s.charInRun d).phase = .run := by simpa [State.charInRun_eq] using hrun
    have hwords : textWords (d :: line) ++ ws = encode (.char d) :: (textWords line ++ ws) := rfl
    rw [hwords, State.afterWords_instr _ hb (decode_encode (.char d)) (exec_char_of_run d hrun), ih hrun' hb',
      State.receive_cons]

section
variable {s : State} (line : List Byte)

theorem State.receive_engineAtRest (h : s.EngineAtRest) : (s.receive line).EngineAtRest := by
  induction line using List.reverseRecOn with
  | nil => exact h
  | append_singleton line d ih =>
    rw [State.receive_concat]
    exact State.charInRun_engineAtRest _ d

theorem State.receive_clearLine (h : s.EngineAtRest) : (s.receive line).clearLine = s.clearLine := by
  induction line using List.reverseRecOn with
  | nil => rfl
  | append_singleton line d ih =>
    rw [State.receive_concat, State.charInRun_clearLine d (State.receive_engineAtRest line h), ih]

/-- The streaming relation of R99, by induction on the line. -/
theorem State.receive_tracks (h : s.LineClear) : (s.receive line).Tracks line := by
  induction line using List.reverseRecOn with
  | nil => exact h.tracks_nil
  | append_singleton line d ih =>
    rw [State.receive_concat]
    exact State.charInRun_tracks d ih

end

/-- A state is its per-line registers and the rest of it. -/
theorem State.eq_of_clearLine_eq {s t : State} (h : t.clearLine = s.clearLine) :
    t = { s with
      acc := t.acc, snap := t.snap, exp := t.exp, seen := t.seen, hasDig := t.hasDig, badCh := t.badCh,
      expOvf := t.expOvf, dirty := t.dirty } := by
  calc
    t = { t.clearLine with
          acc := t.acc, snap := t.snap, exp := t.exp, seen := t.seen, hasDig := t.hasDig, badCh := t.badCh,
          expOvf := t.expOvf, dirty := t.dirty } := rfl
    _ = _ := by rw [h]; rfl

theorem State.LineClear.clearLine_eq {s : State} (h : s.LineClear) : s.clearLine = s := by
  obtain ⟨hacc, hsnap, hexp, hseen, hdig, hbad, hovf, hdirty⟩ := h
  have heq := State.eq_of_clearLine_eq (t := s) (s := s.clearLine) rfl
  rw [hacc, hsnap, hexp, hseen, hdig, hbad, hovf, hdirty] at heq
  exact heq.symm

/-- Settles O38. -/
theorem registersTrackTheLine : Obligations.RegistersTrackTheLine := by
  intro s line hrun hrest hclear
  obtain ⟨-, -, hb⟩ := id hrest
  refine ⟨s.receive line, ?_, State.receive_tracks line hclear,
    State.eq_of_clearLine_eq (State.receive_clearLine line hrest)⟩
  have hwords := State.afterWords_textWords_append line [] hrun hb
  rwa [List.append_nil] at hwords

/-! ## EOL on the line received -/

/-- In phase RUN the words of a line are its bytes and then EOL (R59). -/
theorem State.afterWords_lineWords {s : State} (line : List Byte) (hrun : s.phase = .run) (hrest : s.EngineAtRest) :
    s.afterWords (lineWords line) = .next (s.receive line).eolInRun := by
  obtain ⟨-, -, hb⟩ := id hrest
  obtain ⟨-, -, hb'⟩ := State.receive_engineAtRest line hrest
  have hrun' : (s.receive line).phase = .run :=
    (congrArg (fun u : State => u.phase) (State.receive_clearLine line hrest)).trans hrun
  rw [lineWords, State.afterWords_textWords_append line _ hrun hb,
    State.afterWords_instr [] hb' (decode_encode .eol) (exec_eol_of_run hrun'), State.afterWords_nil]

section
variable {t : State} {payload trailing : List Byte} (h : t.TracksField payload trailing)
include h

/-- Where PARSEDEC finds no number, the flags say so (R91, R23). -/
theorem State.TracksField.bad_of_parseDec_none (hn : parseDec trailing = none) :
    t.hasDig = false ∨ t.badCh = true := by
  obtain ⟨-, -, hdig, hbad, -⟩ := h
  rw [hdig, hbad]
  exact (parseDec_eq_none_iff trailing).1 hn

/-- Where PARSEDEC finds a number, the flags say so and EXP holds the number clipped (R91, R23, R100). -/
theorem State.TracksField.of_parseDec_some {n : Nat} (hn : parseDec trailing = some n) :
    t.hasDig = true ∧ t.badCh = false ∧ t.exp = min n t.params.expMax ∧ t.expOvf = decide (t.params.expMax < n) := by
  obtain ⟨-, -, hdig, hbad, hexp, hovf⟩ := h
  have hgood : ¬(t.hasDig = false ∨ t.badCh = true) := by
    rw [hdig, hbad, ← parseDec_eq_none_iff, hn]
    exact nofun
  rw [decimalValue_digitsOf_of_parseDec hn] at hexp hovf
  simp only [not_or, Bool.not_eq_false, Bool.not_eq_true] at hgood
  exact ⟨hgood.1, hgood.2, hexp, hovf⟩

/-- The machine compares the clipped number and finds what the reference finds of the number itself (R102). -/
theorem State.TracksField.exp_eq_snap_iff {n : Nat} (hvalid : t.params.valid) (hn : parseDec trailing = some n) :
    t.exp = t.snap.toNat ↔ n = (compute payload).toNat := by
  obtain ⟨-, -, hexp, -⟩ := h.of_parseDec_some hn
  obtain ⟨-, hsnap, -⟩ := h
  rw [hexp, hsnap, min_expMax_eq_byte_iff hvalid]

end

/-- A malformed line ends as the policy says, and under FATAL its registers still tell of it (R97, R99). -/
theorem State.malformedLine_of_tracks {t u : State} {line : List Byte} {c : Cause} (h : t.Tracks line)
    (hu : u = t.malformedLine c) :
    (t.params.policy = .skip →
      u = { t.clearLine with
        lineIdx := t.lineIdx + 1, skipped := t.skipped + 1, output := t.output ++ [.malformed t.lineIdx c] }) ∧
    (t.params.policy = .fatal →
      u.Tracks line ∧
      u = { t.clearLine with
        phase := .faulted, cause := c,
        acc := u.acc, snap := u.snap, exp := u.exp, seen := u.seen, hasDig := u.hasDig, badCh := u.badCh,
        expOvf := u.expOvf, dirty := u.dirty,
        output := t.output ++ [.malformed t.lineIdx c, .fault c t.lineIdx] }) := by
  subst hu
  refine ⟨State.malformedLine_eq_of_skip c, fun hpolicy => ?_⟩
  rw [State.malformedLine_eq_of_fatal c hpolicy]
  exact ⟨h, rfl⟩

/-- Settles O39: the cases of SPLIT and PARSEDEC, and in each the test of EOL that finds it. -/
theorem lineIsJudgedAsReference : Obligations.LineIsJudgedAsReference := by
  intro s line hvalid hrun hrest hclear hidx hroom
  refine ⟨_, State.afterWords_lineWords line hrun hrest, ?_⟩
  have hline : (s.receive line).clearLine = s := (State.receive_clearLine line hrest).trans hclear.clearLine_eq
  have htracks := State.receive_tracks line hclear
  generalize s.receive line = t at hline htracks ⊢
  subst hline
  have hroom' : t.lineIdx ≠ t.params.cntMax := hroom.ne
  have hidx' : t.lineIdx ≠ 0 := Nat.one_le_iff_ne_zero.1 hidx
  obtain ⟨-, -, ⟨hsplit, hseen, -⟩ | ⟨payload, trailing, hsplit, hfield⟩⟩ := (t.tracks_iff line).1 htracks
  · rw [validateLine_of_noDelimiter hsplit]
    exact State.malformedLine_of_tracks (t := t) htracks (State.eolInRun_of_noDelimiter hroom' hidx' hseen)
  obtain ⟨hseen, hsnap, -⟩ := id hfield
  cases hn : parseDec trailing with
  | none =>
    rw [validateLine_of_badInteger hsplit hn]
    have hbad := hfield.bad_of_parseDec_none hn
    exact State.malformedLine_of_tracks (t := t) htracks (State.eolInRun_of_badInteger hroom' hidx' hseen hbad)
  | some n =>
    obtain ⟨hdig, hbad, hexp, hovf⟩ := hfield.of_parseDec_some hn
    have hverdict := hfield.exp_eq_snap_iff hvalid hn
    rw [State.eolInRun_of_wellFormed hroom' hidx' hseen hdig hbad]
    by_cases heq : n = (compute payload).toNat
    · rw [validateLine_of_agree hsplit hn heq, State.dataLine_of_agree (hverdict.2 heq)]
      rfl
    · rw [validateLine_of_differ hsplit hn heq, State.dataLine_of_differ (heq ∘ hverdict.1), hexp, hovf, hsnap]
      rfl

end Sys2Proof.Machine
end

section
/-!
The run commands and the phase machine (42_run_commands.md R110 to R115): START, EOS and ABORT in each phase, the commands
out of place, what FAULTED ignores, and from these the table of R110.
-/

namespace Sys2Proof.Machine

/-! ## START, EOS and ABORT, one equation per case -/

theorem exec_start_of_closed {s : State} (hp : s.phase ≠ .run) : exec .start s = .next s.beginRun := by
  cases h : s.phase with
  | run => exact absurd h hp
  | idle | done | faulted => simp [exec, execStart, h]

theorem exec_start_of_run {s : State} (hp : s.phase = .run) : exec .start s = .next (s.raise .protocol) := by
  simp [exec, execStart, hp]

/-- Settles O16. -/
theorem startBeginsRun : Obligations.StartBeginsRun :=
  ⟨rfl, rfl, rfl, fun _ => ⟨exec_start_of_closed, exec_start_of_run⟩⟩

theorem exec_eos_of_clean {s : State} (hp : s.phase = .run) (hd : s.dirty = false) :
    exec .eos s = .next (State.endRun (State.emit (.summary s.checked s.failed s.skipped) s)) := by
  simp [exec, execEos, State.eosInRun, hp, hd]

theorem exec_eos_of_dirty {s : State} (hp : s.phase = .run) (hd : s.dirty = true) :
    exec .eos s = .next (s.raise .protocol) := by
  simp [exec, execEos, State.eosInRun, hp, hd]

/-- Settles O22. -/
theorem eosEndsRun : Obligations.EosEndsRun :=
  ⟨rfl, fun _ hp => ⟨exec_eos_of_clean hp, exec_eos_of_dirty hp⟩⟩

theorem exec_abort_of_run {s : State} (hp : s.phase = .run) : exec .abort s = .next (s.raise .resourceAccess) := by
  simp [exec, execAbort, hp]

theorem exec_abort_of_done {s : State} (hp : s.phase = .done) : exec .abort s = .next (s.raise .protocol) := by
  simp [exec, execAbort, hp]

/-! ## Commands out of place, and commands ignored -/

/-- CHAR, EOL and EOS belong to a run: in IDLE and DONE each raises PROTOCOL (R114). -/
theorem exec_of_no_run {s : State} {i : Instr} (hi : (∃ d, i = .char d) ∨ i = .eol ∨ i = .eos)
    (hp : s.phase = .idle ∨ s.phase = .done) : exec i s = .next (s.raise .protocol) := by
  obtain ⟨d, rfl⟩ | rfl | rfl := hi
  · obtain h | h := hp <;> simp [exec, execChar, h]
  · obtain h | h := hp <;> simp [exec, execEol, h]
  · obtain h | h := hp <;> simp [exec, execEos, h]

/-- In FAULTED every instruction but START is ignored (R115). -/
theorem exec_of_faulted {s : State} {i : Instr} (hp : s.phase = .faulted) (hi : i ≠ .start) : exec i s = .next s := by
  cases i with
  | start => exact absurd rfl hi
  | char d => simp [exec, execChar, hp]
  | eol => simp [exec, execEol, hp]
  | eos => simp [exec, execEos, hp]
  | abort => simp [exec, execAbort, hp]

/-- Settles O23. -/
theorem abortFailsRun : Obligations.AbortFailsRun :=
  ⟨rfl, rfl, fun _ => ⟨fun hp => hp.elim exec_abort_of_idle exec_abort_of_run, exec_abort_of_done,
    fun hp => exec_of_faulted hp nofun⟩⟩

/-- Settles O24, one sort of misplaced command at a time. -/
theorem commandOutOfPlaceRaisesProtocol : Obligations.CommandOutOfPlaceRaisesProtocol := by
  refine ⟨rfl, fun s i d h => ?_⟩
  obtain ⟨hi, hp⟩ | ⟨rfl, hp⟩ | ⟨rfl, hp⟩ | ⟨rfl, hp, hd⟩ := h
  · exact exec_of_no_run (hi.imp_left fun h => ⟨d, h⟩) hp
  · exact exec_start_of_run hp
  · exact exec_abort_of_done hp
  · exact exec_eos_of_dirty hp hd

/-- Settles O25. -/
theorem commandIsIgnoredInFaulted : Obligations.CommandIsIgnoredInFaulted :=
  fun _ _ => exec_of_faulted

/-! ## The phase table -/

/-- The phase and the cause after EOL in phase RUN, in the order of its tests (R94, R130). -/
theorem State.eolInRun_phaseAfter {s : State} (hp : s.phase = .run) (hc : s.cause = .none) :
    (s.eolInRun.phase, s.eolInRun.cause) = phaseAfter .run (eolRaises s) := by
  obtain ⟨hf, e⟩ | ⟨hf, h0, e⟩ | ⟨hf, h0, hs, e⟩ | ⟨hf, h0, hs, hbad, e⟩ | ⟨hf, h0, hs, hdig, hbad, e⟩ :=
    s.eolInRun_cases <;> rw [e]
  · simp [eolRaises, phaseAfter, hf]
  · have hroom : 0 ≠ s.params.cntMax := h0 ▸ hf
    simp [eolRaises, phaseAfter, State.headerLine, h0, hroom, hp, hc]
  · obtain ⟨hpol, e⟩ | ⟨hpol, e⟩ := s.malformedLine_cases .malformedNoDelimiter <;>
      simp [eolRaises, phaseAfter, e, hf, h0, hs, hpol, hp, hc]
  · obtain ⟨hpol, e⟩ | ⟨hpol, e⟩ := s.malformedLine_cases .malformedBadInteger <;>
      simp [eolRaises, phaseAfter, e, hf, h0, hs, hbad, hpol, hp, hc]
  · obtain e | e := s.dataLine_cases <;>
      simp [eolRaises, phaseAfter, e, State.reportMismatch, hf, h0, hs, hdig, hbad, hp, hc]

section
variable {s : State} (i : Instr)

theorem exec_phaseTable_of_idle (hp : s.phase = .idle) :
    ∃ t, exec i s = .next t ∧ (t.phase, t.cause) = phaseTable s (.instr i) := by
  cases i with
  | start => exact ⟨_, exec_start_of_closed (by simp [hp]), by simp [phaseTable, hp]⟩
  | char | eol | eos => exact ⟨_, exec_of_no_run (by simp) (.inl hp), by simp [phaseTable, hp]⟩
  | abort => exact ⟨_, exec_abort_of_idle hp, by simp [phaseTable, hp]⟩

theorem exec_phaseTable_of_done (hp : s.phase = .done) :
    ∃ t, exec i s = .next t ∧ (t.phase, t.cause) = phaseTable s (.instr i) := by
  cases i with
  | start => exact ⟨_, exec_start_of_closed (by simp [hp]), by simp [phaseTable, hp]⟩
  | char | eol | eos => exact ⟨_, exec_of_no_run (by simp) (.inr hp), by simp [phaseTable, hp]⟩
  | abort => exact ⟨_, exec_abort_of_done hp, by simp [phaseTable, hp]⟩

theorem exec_phaseTable_of_faulted (hp : s.phase = .faulted) :
    ∃ t, exec i s = .next t ∧ (t.phase, t.cause) = phaseTable s (.instr i) := by
  cases i with
  | start => exact ⟨_, exec_start_of_closed (by simp [hp]), by simp [phaseTable, hp]⟩
  | char | eol | eos | abort => exact ⟨_, exec_of_faulted hp nofun, by simp [phaseTable, hp]⟩

theorem exec_phaseTable_of_run (hp : s.phase = .run) (hc : s.cause = .none) :
    ∃ t, exec i s = .next t ∧ (t.phase, t.cause) = phaseTable s (.instr i) := by
  cases i with
  | start => exact ⟨_, exec_start_of_run hp, by simp [phaseTable, hp]⟩
  | char d => exact ⟨_, exec_char_of_run d hp, by simp [phaseTable, State.charInRun_eq, hp, hc]⟩
  | eol => exact ⟨_, exec_eol_of_run hp, by simp [phaseTable, State.eolInRun_phaseAfter hp hc, hp]⟩
  | eos =>
    cases hd : s.dirty with
    | false => exact ⟨_, exec_eos_of_clean hp hd, by simp [phaseTable, phaseAfter, hp, hc, hd]⟩
    | true => exact ⟨_, exec_eos_of_dirty hp hd, by simp [phaseTable, phaseAfter, hp, hd]⟩
  | abort => exact ⟨_, exec_abort_of_run hp, by simp [phaseTable, hp]⟩

end

/-- The instruction columns of the table (R110). -/
theorem exec_phaseTable {s : State} (i : Instr) (hs : s.CauseMatchesPhase) :
    ∃ t, exec i s = .next t ∧ (t.phase, t.cause) = phaseTable s (.instr i) := by
  cases hp : s.phase with
  | idle => exact exec_phaseTable_of_idle i hp
  | run => exact exec_phaseTable_of_run i hp (State.cause_eq_none_of_run hp hs)
  | done => exact exec_phaseTable_of_done i hp
  | faulted => exact exec_phaseTable_of_faulted i hp

/-- The column of the reserved words (R110, R54). -/
theorem State.acceptReserved_phaseTable (s : State) (r : Reserved) :
    (s.acceptReserved.phase, s.acceptReserved.cause) = phaseTable s (.reserved r) := by
  cases hp : s.phase <;> simp [State.acceptReserved, phaseTable, hp]

/-- Settles O10, by what the word decodes to; taking the word off the stream does not move the cell. -/
theorem phaseTableIsFollowed : Obligations.PhaseTableIsFollowed := by
  intro s w rest hb hs hi
  cases hw : decode w with
  | instr i =>
    rw [step_of_instr hb hi hw]
    exact exec_phaseTable (s := s.withInput rest) i hs
  | reserved r => exact ⟨_, step_of_reserved hb hi hw, (s.withInput rest).acceptReserved_phaseTable r⟩

/-- Settles O11: what the block finds at its ports either is a whole step or is an instruction, which has a next state. -/
theorem everyStepGoesOn : Obligations.EveryStepGoesOn := by
  intro s
  unfold step
  cases s.fetch with
  | settled t => exact ⟨t, rfl⟩
  | instr i t => exact exec_total i t

end Sys2Proof.Machine
end

section
/-!
Streams of words (42_run_commands.md R115, R118; 70_reset_and_hazards.md R152): a run over a list of words is the
acceptance of each of them in turn, so what one acceptance keeps or carries along a run keeps or carries along.
-/

namespace Sys2Proof.Machine

/-! ## The acceptance of one word -/

/-- The block accepts the word `w` in the state `s` and is in the state `t` once its effect is complete: the effect of
the instruction it decodes to, or that of a reserved word (R50, R54). -/
def State.Accepts (w : CmdWord) (s t : State) : Prop :=
  (∃ i, decode w = .instr i ∧ exec i s = .next t) ∨ ∃ r, decode w = .reserved r ∧ t = s.acceptReserved

/-- A run over one word more accepts it first. -/
theorem State.Accepts.afterWords_cons {w : CmdWord} {s t : State} (h : s.Accepts w t) (hb : s.busy = false)
    (ws : List CmdWord) : s.afterWords (w :: ws) = t.afterWords ws := by
  obtain ⟨i, hw, h⟩ | ⟨r, hw, rfl⟩ := h
  · exact State.afterWords_instr ws hb hw h
  · exact State.afterWords_reserved ws hb hw

/-- Every word is accepted in every state (R110). -/
theorem State.exists_accepts (w : CmdWord) (s : State) : ∃ t, s.Accepts w t := by
  cases hw : decode w with
  | instr i =>
    obtain ⟨t, h⟩ := exec_total i s
    exact ⟨t, .inl ⟨i, hw, h⟩⟩
  | reserved r => exact ⟨s.acceptReserved, .inr ⟨r, hw, rfl⟩⟩

theorem State.accepts_encode {i : Instr} {s t : State} (h : exec i s = .next t) : s.Accepts (encode i) t :=
  .inl ⟨i, decode_encode i, h⟩

theorem State.Accepts.engineAtRest {w : CmdWord} {s t : State} (h : s.Accepts w t) (hs : s.EngineAtRest) :
    t.EngineAtRest := by
  obtain ⟨i, -, h⟩ | ⟨r, -, rfl⟩ := h
  · exact exec_engineAtRest h hs
  · exact State.acceptReserved_engineAtRest hs

theorem State.Accepts.params_eq {w : CmdWord} {s t : State} (h : s.Accepts w t) : t.params = s.params := by
  obtain ⟨i, -, h⟩ | ⟨r, -, rfl⟩ := h
  · exact exec_params h
  · exact s.acceptReserved_params

theorem State.Accepts.input_eq {w : CmdWord} {s t : State} (h : s.Accepts w t) : t.input = s.input := by
  obtain ⟨i, -, h⟩ | ⟨r, -, rfl⟩ := h
  · exact exec_input h
  · obtain ⟨-, e⟩ | ⟨-, e⟩ := s.acceptReserved_cases <;> simp [e]

/-- The events emitted before a word and the words to come after it are carried along (R33). -/
theorem State.Accepts.around {w : CmdWord} {s t : State} (h : s.Accepts w t) (before : List Event)
    (r : List PortInput) : ((s.afterEvents before).withInput r).Accepts w ((t.afterEvents before).withInput r) := by
  obtain ⟨i, hw, h⟩ | ⟨why, hw, rfl⟩ := h
  · exact .inl ⟨i, hw, exec_withInput (exec_afterEvents h before) r⟩
  · exact .inr ⟨why, hw, by rw [State.acceptReserved_withInput, State.acceptReserved_afterEvents]⟩

/-- In FAULTED a word that is not START is ignored (R115). -/
theorem State.Accepts.eq_of_faulted {w : CmdWord} {s t : State} (h : s.Accepts w t) (hp : s.phase = .faulted)
    (hw : w ≠ encode .start) : t = s := by
  obtain ⟨i, hi, h⟩ | ⟨r, -, rfl⟩ := h
  · have hstart : i ≠ .start := by
      rintro rfl
      exact hw (encode_of_decode hi).symm
    simpa [exec_of_faulted hp hstart] using h.symm
  · obtain ⟨hne, -⟩ | ⟨-, e⟩ := s.acceptReserved_cases
    · exact absurd hp hne
    · exact e

/-! ## Lists of words -/

/-- With the engine at rest every list of words is run to its end, and leaves the engine at rest, the parameters and the
stream behind the list as they are (R30, R33, R110). -/
theorem State.exists_afterWords {s : State} (ws : List CmdWord) (hs : s.EngineAtRest) :
    ∃ t, s.afterWords ws = .next t ∧ t.EngineAtRest ∧ t.params = s.params ∧ t.input = s.input := by
  induction ws generalizing s with
  | nil => exact ⟨s, rfl, hs, rfl, rfl⟩
  | cons w ws ih =>
    obtain ⟨u, hu⟩ := s.exists_accepts w
    obtain ⟨t, ht, hrest, hparams, hinput⟩ := ih (hu.engineAtRest hs)
    obtain ⟨-, -, hb⟩ := hs
    exact ⟨t, (hu.afterWords_cons hb ws).trans ht, hrest, hparams.trans hu.params_eq, hinput.trans hu.input_eq⟩

/-- The same of the state known to be the end of the run. -/
theorem State.afterWords_frame {s t : State} {ws : List CmdWord} (hs : s.EngineAtRest)
    (h : s.afterWords ws = .next t) : t.EngineAtRest ∧ t.params = s.params ∧ t.input = s.input := by
  obtain ⟨u, hu, hframe⟩ := State.exists_afterWords ws hs
  obtain rfl : t = u := by simpa [h] using hu
  exact hframe

/-- A run over one list and then another. -/
theorem State.afterWords_append {s t : State} {ws : List CmdWord} (more : List CmdWord) (hs : s.EngineAtRest)
    (h : s.afterWords ws = .next t) : s.afterWords (ws ++ more) = t.afterWords more := by
  induction ws generalizing s with
  | nil =>
    obtain rfl : s = t := by simpa [State.afterWords_nil] using h
    rfl
  | cons w ws ih =>
    obtain ⟨u, hu⟩ := s.exists_accepts w
    have hrest := hu.engineAtRest hs
    obtain ⟨-, -, hb⟩ := hs
    rw [hu.afterWords_cons hb] at h
    rw [List.cons_append, hu.afterWords_cons hb, ih hrest h]

/-- Settles O13, one ignored word at a time. -/
theorem faultIsSticky : Obligations.FaultIsSticky := by
  intro s ws hb hp hstart
  induction ws with
  | nil => exact s.afterWords_nil
  | cons w ws ih =>
    obtain ⟨hw, hws⟩ := List.ne_and_not_mem_of_not_mem_cons hstart
    obtain ⟨t, ht⟩ := s.exists_accepts w
    obtain rfl : t = s := ht.eq_of_faulted hp hw.symm
    rw [ht.afterWords_cons hb, ih hws]

/-! ## A run and the stream that it is given -/

/-- What the words make of a state they make of it with events before it and words after it (R33). -/
theorem State.afterWords_around {s t : State} {ws : List CmdWord} (hs : s.EngineAtRest)
    (h : s.afterWords ws = .next t) (before : List Event) (r : List PortInput) :
    ((s.afterEvents before).withInput r).afterWords ws = .next ((t.afterEvents before).withInput r) := by
  induction ws generalizing s with
  | nil =>
    obtain rfl : s = t := by simpa [State.afterWords_nil] using h
    rfl
  | cons w ws ih =>
    obtain ⟨u, hu⟩ := s.exists_accepts w
    have hrest := hu.engineAtRest hs
    obtain ⟨-, -, hb⟩ := hs
    rw [hu.afterWords_cons hb] at h
    rw [(hu.around before r).afterWords_cons hb, ih hrest h]

/-- The words read the parameters and the registers alone: the events emitted before and the stream behind them are put
around what they make of these (R33, R50). -/
theorem State.afterWords_of_alone {s t : State} {ws : List CmdWord} (hs : s.EngineAtRest)
    (h : s.alone.afterWords ws = .next t) :
    s.afterWords ws = .next ((t.afterEvents s.output).withInput s.input) := by
  have haround := State.afterWords_around (s := s.alone) hs h s.output s.input
  rwa [← State.withInput_eq_alone, State.withInput_self] at haround

/-- START makes two blocks alike: all it leaves of the state before is the parameters, the events and the stream (R111,
R118). -/
theorem State.beginRun_alone_eq {s₁ s₂ : State} (hparams : s₁.params = s₂.params) (h₁ : s₁.EngineAtRest)
    (h₂ : s₂.EngineAtRest) : s₁.beginRun.alone = s₂.beginRun.alone := by
  obtain ⟨hshr₁, hcnt₁, hbusy₁⟩ := h₁
  obtain ⟨hshr₂, hcnt₂, hbusy₂⟩ := h₂
  simp [State.alone, State.beginRun, State.emit, hparams, hshr₁, hcnt₁, hbusy₁, hshr₂, hcnt₂, hbusy₂]

/-- With no run open, START and more words are a run begun and then these words (R111). -/
theorem State.afterWords_start {s : State} (ws : List CmdWord) (hp : s.phase ≠ .run) (hs : s.EngineAtRest) :
    s.afterWords (encode .start :: ws) = s.beginRun.afterWords ws := by
  obtain ⟨-, -, hb⟩ := hs
  exact (State.accepts_encode (exec_start_of_closed hp)).afterWords_cons hb ws

/-- Settles O41: after START both blocks do what the registers alone do, which are the same in both. -/
theorem runDependsOnStreamAlone : Obligations.RunDependsOnStreamAlone := by
  intro s₁ s₂ ws hparams h₁ h₂ hp₁ hp₂
  obtain ⟨t, ht, -⟩ := State.exists_afterWords (s := s₁.beginRun.alone) ws h₁
  have ht₂ : s₂.beginRun.alone.afterWords ws = .next t := by rwa [← State.beginRun_alone_eq hparams h₁ h₂]
  refine ⟨_, _, .runBegin :: t.output, (State.afterWords_start ws hp₁ h₁).trans (State.afterWords_of_alone h₁ ht),
    (State.afterWords_start ws hp₂ h₂).trans (State.afterWords_of_alone h₂ ht₂), rfl, rfl, ?_, ?_⟩ <;>
    simp [State.afterEvents, State.withInput]

end Sys2Proof.Machine
end

section
/-!
Whole runs against the reference (42_run_commands.md R116): in phase RUN the block is its state at the start of the run
with the tally of VALIDATE written into it; each line moves the two alike, or ends both in the same fault.
-/

namespace Sys2Proof.Machine

/-! ## The block in step with a tally -/

/-- The state `b` at the start of a run, moved on to the start of line `i` with the counts and the events of `tally`
(R116). -/
def State.withTally (i : Nat) (tally : Tally) (b : State) : State :=
  { b with
    lineIdx := i, checked := tally.checked, failed := tally.failed, skipped := tally.skipped,
    output := b.output ++ tally.events }

/-- The events of one line more are those of a tally with these events at its end. -/
theorem State.withTally_append (b : State) (i j checked failed skipped : Nat) (tally : Tally) (events : List Event) :
    { b.withTally i tally with
      lineIdx := j, checked := checked, failed := failed, skipped := skipped,
      output := (b.withTally i tally).output ++ events } =
    b.withTally j
      { checked := checked, failed := failed, skipped := skipped, events := tally.events ++ events } := by
  simp [State.withTally]

/-- A state in which a run may go on with its next line: phase RUN without a cause, and nothing of a line received. -/
structure State.AtLineStart (b : State) : Prop where
  run : b.phase = .run
  cause : b.cause = .none
  rest : b.EngineAtRest
  clear : b.LineClear

/-- The tally moves nothing that matters at the start of a line. -/
theorem State.AtLineStart.withTally {b : State} (h : b.AtLineStart) (i : Nat) (tally : Tally) :
    (b.withTally i tally).AtLineStart :=
  ⟨h.run, h.cause, h.rest, h.clear⟩

/-- The tally with which VALIDATE starts (R116). -/
def Tally.start : Tally := { checked := 0, failed := 0, skipped := 0, events := [.runBegin] }

theorem validate_eq (p : Params) (lines : List (List Byte)) : validate p lines = validateFrom p 0 .start lines := rfl

theorem Tally.malformed_of_skip (tally : Tally) {p : Params} (c : Cause) (i : Nat) (h : p.policy = .skip) :
    tally.malformed p c i =
      .inl { tally with skipped := tally.skipped + 1, events := tally.events ++ [.malformed i c] } := by
  simp [Tally.malformed, h]

theorem Tally.malformed_of_fatal (tally : Tally) {p : Params} (c : Cause) (i : Nat) (h : p.policy = .fatal) :
    tally.malformed p c i = .inr (.faulted c i (tally.events ++ [.malformed i c, .fault c i])) := by
  simp [Tally.malformed, h]

/-- START writes the tally with which VALIDATE starts (R111, R116). -/
theorem State.beginRun_eq_withTally (s : State) :
    s.beginRun = State.withTally 0 .start { s.clearLine with phase := .run, cause := .none } := rfl

theorem State.clearLine_atLineStart {s : State} (h : s.EngineAtRest) :
    State.AtLineStart { s.clearLine with phase := .run, cause := .none } :=
  ⟨rfl, rfl, h, ⟨rfl, rfl, rfl, rfl, rfl, rfl, rfl, rfl⟩⟩

/-- How the block stands at the end of a run of `n` lines, where `before` had been emitted before the run and VALIDATE
says `v` (R116). -/
def State.EndsAs (n : Nat) (before : List Event) (t : State) : RunVerdict → Prop
  | .done checked failed skipped events =>
    t.phase = .done ∧ t.cause = .none ∧ t.lineIdx = n ∧ t.checked = checked ∧ t.failed = failed ∧
      t.skipped = skipped ∧ t.LineClear ∧ t.output = before ++ events
  | .faulted cause line events =>
    t.phase = .faulted ∧ t.cause = cause ∧ t.lineIdx = line ∧ t.output = before ++ events

/-- What the body of VALIDATE's loop says of a line, the block does: `o` is the outcome of the words of line `i`. -/
def State.LineEndsAs (i : Nat) (b : State) (o : Host.Outcome State Fault Refusal) : Tally ⊕ RunVerdict → Prop
  | .inl tally => o = .next (b.withTally (i + 1) tally)
  | .inr v => ∃ t, o = .next t ∧ t.phase = .faulted ∧ ∀ n, t.EndsAs n b.output v

/-! ## One line -/

theorem State.headerLine_eq (s : State) :
    s.headerLine = { s.clearLine with lineIdx := s.lineIdx + 1, output := s.output ++ [.header 0 (!s.seen)] } := rfl

/-- SEEN says whether SPLIT finds a delimiter (R99, R90). -/
theorem State.Tracks.seen_eq {s : State} {line : List Byte} (h : s.Tracks line) :
    (!s.seen) = (splitLine line).isNone := by
  obtain ⟨-, -, ⟨hsplit, hseen, -⟩ | ⟨_, _, hsplit, hseen, -⟩⟩ := (s.tracks_iff line).1 h <;>
    rw [hsplit, hseen] <;> rfl

/-- The words of the header line report it with what SPLIT says of it, and close it (R95, R116). -/
theorem State.afterWords_header {s : State} (line : List Byte) (h : s.AtLineStart) (hidx : s.lineIdx = 0)
    (hroom : 0 < s.params.cntMax) :
    s.afterWords (lineWords line) =
      .next { s with lineIdx := 1, output := s.output ++ [.header 0 (splitLine line).isNone] } := by
  obtain ⟨hrun, -, hrest, hclear⟩ := h
  have hline : (s.receive line).clearLine = s := (State.receive_clearLine line hrest).trans hclear.clearLine_eq
  have hseen := State.Tracks.seen_eq (State.receive_tracks line hclear)
  rw [State.afterWords_lineWords line hrun hrest]
  generalize s.receive line = t at hline hseen ⊢
  subst hline
  have hidx' : t.lineIdx = 0 := hidx
  have hroom' : t.lineIdx ≠ t.params.cntMax := hidx'.trans_ne (Nat.ne_of_lt hroom)
  rw [State.eolInRun_of_header hroom' hidx', State.headerLine_eq, hidx', hseen]
  rfl

section
variable {b : State} {i : Nat} (tally : Tally)

/-- Line 0 of the source: nothing is counted (R95, R116). -/
theorem State.header_lineEndsAs (line : List Byte) (h : b.AtLineStart) (hroom : 0 < b.params.cntMax) :
    b.LineEndsAs 0 ((b.withTally 0 tally).afterWords (lineWords line)) (tally.line b.params 0 line) := by
  rw [State.afterWords_header line (h.withTally 0 tally) rfl hroom, Tally.line, if_pos rfl]
  exact congrArg _ (b.withTally_append 0 _ _ _ _ tally _)

/-- A malformed line, given what the block makes of it under either policy (R97, R116). -/
theorem State.malformed_lineEndsAs {o : Host.Outcome State Fault Refusal} {t : State} {c : Cause} (ho : o = .next t)
    (hskip : b.params.policy = .skip →
      t = { b.withTally i tally with
        lineIdx := i + 1, skipped := tally.skipped + 1, output := b.output ++ tally.events ++ [.malformed i c] })
    (hfatal : b.params.policy = .fatal →
      t = { b.withTally i tally with
        phase := .faulted, cause := c,
        acc := t.acc, snap := t.snap, exp := t.exp, seen := t.seen, hasDig := t.hasDig, badCh := t.badCh,
        expOvf := t.expOvf, dirty := t.dirty,
        output := b.output ++ tally.events ++ [.malformed i c, .fault c i] }) :
    b.LineEndsAs i o (tally.malformed b.params c i) := by
  cases hpolicy : b.params.policy with
  | skip =>
    rw [tally.malformed_of_skip c i hpolicy, ho, hskip hpolicy]
    exact congrArg _ (b.withTally_append i _ _ _ _ tally _)
  | fatal =>
    rw [tally.malformed_of_fatal c i hpolicy, ho, hfatal hpolicy]
    exact ⟨_, rfl, rfl, fun _ => ⟨rfl, rfl, rfl, List.append_assoc _ _ _⟩⟩

/-- A data line: the verdict of VALIDATE_LINE moves the tally and the block alike (R99, R116). -/
theorem State.data_lineEndsAs (line : List Byte) (h : b.AtLineStart) (hvalid : b.params.valid) (hidx : 1 ≤ i)
    (hroom : i < b.params.cntMax) :
    b.LineEndsAs i ((b.withTally i tally).afterWords (lineWords line)) (tally.line b.params i line) := by
  obtain ⟨hrun, -, hrest, hclear⟩ := h.withTally i tally
  obtain ⟨t, ht, hverdict⟩ := lineIsJudgedAsReference (b.withTally i tally) line hvalid hrun hrest hclear hidx hroom
  rw [Tally.line, if_neg (Nat.one_le_iff_ne_zero.1 hidx)]
  cases hv : validateLine line with
  | malformedNoDelimiter | malformedBadInteger =>
    rw [hv] at hverdict
    obtain ⟨hskip, hfatal⟩ := hverdict
    exact State.malformed_lineEndsAs tally ht hskip fun hpolicy => (hfatal hpolicy).2
  | fail | pass =>
    simp only [hv] at hverdict
    rw [ht, hverdict]
    exact congrArg _ (b.withTally_append i _ _ _ _ tally _)

/-- Every line below the ceiling of LINEIDX (R116). -/
theorem State.line_lineEndsAs (line : List Byte) (h : b.AtLineStart) (hvalid : b.params.valid)
    (hroom : i < b.params.cntMax) :
    b.LineEndsAs i ((b.withTally i tally).afterWords (lineWords line)) (tally.line b.params i line) := by
  cases i with
  | zero => exact State.header_lineEndsAs tally line h hroom
  | succ i => exact State.data_lineEndsAs tally line h hvalid (Nat.succ_pos i) hroom

end

/-! ## The rest of a source -/

/-- No two instructions have the same word (R58). -/
theorem encode_injective : Function.Injective encode := by
  intro i j h
  have hdecode := decode_encode i
  rw [h, decode_encode] at hdecode
  injection hdecode with hij
  exact hij.symm

/-- The words of a source, EOS included, hold no START (R59). -/
theorem encode_start_not_mem_sourceWords_eos (lines : List (List Byte)) :
    encode .start ∉ sourceWords lines ++ [encode .eos] := by
  simp [sourceWords, lineWords, textWords, encode_injective.eq_iff]

/-- EOS after the last line: SUMMARY of the tally (R112, R116). -/
theorem State.eos_endsAs {b : State} (h : b.AtLineStart) (i : Nat) (tally : Tally) :
    ∃ t, (b.withTally i tally).afterWords [encode .eos] = .next t ∧
      t.EndsAs i b.output
        (.done tally.checked tally.failed tally.skipped
          (tally.events ++ [.summary tally.checked tally.failed tally.skipped])) := by
  obtain ⟨hrun, hcause, ⟨-, -, hb⟩, hclear⟩ := h.withTally i tally
  obtain ⟨-, -, -, -, -, -, -, hdirty⟩ := id hclear
  exact ⟨_, (State.accepts_encode (exec_eos_of_clean hrun hdirty)).afterWords_cons hb [],
    rfl, hcause, rfl, rfl, rfl, rfl, hclear, List.append_assoc _ _ _⟩

/-- From the start of line `i` the rest of the source and EOS end as the loop of VALIDATE does from there; after a fault
the words that are left are ignored (R115, R116). -/
theorem State.afterWords_source {b : State} (h : b.AtLineStart) (hvalid : b.params.valid)
    (lines : List (List Byte)) (i : Nat) (tally : Tally) (hroom : i + lines.length ≤ b.params.cntMax) :
    ∃ t, (b.withTally i tally).afterWords (sourceWords lines ++ [encode .eos]) = .next t ∧
      t.EndsAs (i + lines.length) b.output (validateFrom b.params i tally lines) := by
  induction lines generalizing i tally with
  | nil => exact State.eos_endsAs h i tally
  | cons line lines ih =>
    rw [List.length_cons] at hroom ⊢
    have hwords : sourceWords (line :: lines) ++ [encode .eos] =
        lineWords line ++ (sourceWords lines ++ [encode .eos]) := by
      simp [sourceWords]
    have hrest := (h.withTally i tally).rest
    have hline := State.line_lineEndsAs tally line h hvalid (by omega : i < b.params.cntMax)
    rw [hwords, validateFrom]
    cases hl : tally.line b.params i line with
    | inl tally' =>
      rw [hl] at hline
      obtain ⟨t, ht, hend⟩ := ih (i + 1) tally' (by omega)
      refine ⟨t, (State.afterWords_append _ hrest hline).trans ht, ?_⟩
      rwa [show i + (lines.length + 1) = i + 1 + lines.length by omega]
    | inr v =>
      rw [hl] at hline
      obtain ⟨t, ht, hp, hend⟩ := hline
      obtain ⟨⟨-, -, hb⟩, -⟩ := State.afterWords_frame hrest ht
      exact ⟨t, (State.afterWords_append _ hrest ht).trans
        (faultIsSticky t _ hb hp (encode_start_not_mem_sourceWords_eos lines)), hend _⟩

/-- A whole run, from any state in which START is legal (R116). -/
theorem State.afterWords_runWords {s : State} (lines : List (List Byte)) (hvalid : s.params.valid)
    (hp : s.phase ≠ .run) (hs : s.EngineAtRest) (hroom : lines.length ≤ s.params.cntMax) :
    ∃ t, s.afterWords (runWords lines) = .next t ∧
      t.EndsAs lines.length s.output (validate s.params lines) := by
  have hsource := State.afterWords_source (State.clearLine_atLineStart hs) hvalid lines 0 .start
    (by rwa [Nat.zero_add])
  rwa [← State.beginRun_eq_withTally, ← State.afterWords_start _ hp hs, Nat.zero_add, ← validate_eq] at hsource

/-- Settles O40. -/
theorem runComputesReferenceValidation : Obligations.RunComputesReferenceValidation := by
  intro s lines hvalid hp hs hroom
  obtain ⟨t, ht, hend⟩ := State.afterWords_runWords lines hvalid hp hs hroom
  obtain ⟨-, -, hinput⟩ := State.afterWords_frame hs ht
  refine ⟨t, ht, hinput, ?_⟩
  cases hv : validate s.params lines <;> rw [hv] at hend <;> exact hend

end Sys2Proof.Machine
end

section
/-!
The exceptions (60_exceptions.md): the ways out of FAULTED (R133), what the registers show of the fault that CAUSE names
(R121, R123, R124, R129), the ceiling of LINEIDX (R129), and a quiet host (R142).
-/

namespace Sys2Proof.Machine

/-! ## The ways out of FAULTED -/

/-- START leaves every counter and per-line register 0 (R111). -/
theorem State.beginRun_clear (s : State) : s.beginRun.CountersClear ∧ s.beginRun.LineClear :=
  ⟨⟨rfl, rfl, rfl, rfl⟩, rfl, rfl, rfl, rfl, rfl, rfl, rfl, rfl⟩

/-- Reset leaves every counter and per-line register 0 (R32, R150). -/
theorem State.resetBlock_clear (s : State) : s.resetBlock.CountersClear ∧ s.resetBlock.LineClear :=
  ⟨⟨rfl, rfl, rfl, rfl⟩, rfl, rfl, rfl, rfl, rfl, rfl, rfl, rfl⟩

/-- Everything an instruction can do in FAULTED: START begins a run, any other is ignored (R115, R133). -/
theorem exec_cases_of_faulted {i : Instr} {s t : State} (hp : s.phase = .faulted) (h : exec i s = .next t) :
    i = .start ∧ t = s.beginRun ∨ i ≠ .start ∧ t = s := by
  by_cases hi : i = .start
  · subst hi
    rw [exec_start_of_closed (by simp [hp])] at h
    cases h
    exact .inl ⟨rfl, rfl⟩
  · rw [exec_of_faulted hp hi] at h
    cases h
    exact .inr ⟨hi, rfl⟩

/-- In FAULTED a reserved word is ignored (R115, R127). -/
theorem State.acceptReserved_of_faulted {s : State} (hp : s.phase = .faulted) : s.acceptReserved = s := by
  obtain ⟨hne, -⟩ | ⟨-, e⟩ := s.acceptReserved_cases
  · exact absurd hp hne
  · exact e

/-- Settles O12: of all that a step can do, only reset and the word of START write PHASE in FAULTED. -/
theorem faultedIsLeftOnlyByStartOrReset : Obligations.FaultedIsLeftOnlyByStartOrReset := by
  intro s t hp h
  obtain ⟨-, rfl⟩ | ⟨-, -, rfl⟩ | ⟨rest, -, hin, rfl⟩ | ⟨w, rest, r, -, -, -, rfl⟩ | ⟨w, rest, i, -, hin, hw, h⟩ :=
    step_cases h
  · exact .inl ⟨by simpa using hp, s.engineTick_cause, s.engineTick_output⟩
  · exact .inl ⟨hp, rfl, rfl⟩
  · exact .inr ⟨rest, .inr ⟨hin, rfl⟩, rfl, (s.withInput rest).resetBlock_clear⟩
  · rw [State.acceptReserved_of_faulted (s := s.withInput rest) hp]
    exact .inl ⟨hp, rfl, rfl⟩
  · obtain ⟨rfl, rfl⟩ | ⟨-, rfl⟩ := exec_cases_of_faulted (s := s.withInput rest) hp h
    · obtain rfl := encode_of_decode hw
      exact .inr ⟨rest, .inl ⟨hin, rfl⟩, rfl, (s.withInput rest).beginRun_clear⟩
    · exact .inl ⟨hp, rfl, rfl⟩

/-! ## What CAUSE names -/

/-- With no fault there is nothing to explain. -/
theorem State.causeExplained_of_none {s : State} (hc : s.cause = .none) : s.CauseExplained := by
  simp [State.CauseExplained, hc]

/-- EOL raises COUNTER_OVERFLOW and the causes of a malformed line only after the tests that lead to them, and the fault
keeps the registers tested (R94, R126). -/
theorem State.eolInRun_causeExplained {s : State} (hc : s.cause = .none) : s.eolInRun.CauseExplained := by
  obtain ⟨hfull, e⟩ | ⟨-, -, e⟩ | ⟨-, h0, hseen, e⟩ | ⟨-, h0, hseen, hbad, e⟩ | ⟨-, -, -, -, -, e⟩ :=
    s.eolInRun_cases <;> rw [e]
  · exact ⟨nofun, nofun, fun _ => hfull⟩
  · exact State.causeExplained_of_none hc
  · obtain ⟨-, e⟩ | ⟨hpolicy, e⟩ := s.malformedLine_cases .malformedNoDelimiter <;> rw [e]
    · exact State.causeExplained_of_none hc
    · exact ⟨fun _ => ⟨hpolicy, Nat.one_le_iff_ne_zero.2 h0, hseen⟩, nofun, nofun⟩
  · obtain ⟨-, e⟩ | ⟨hpolicy, e⟩ := s.malformedLine_cases .malformedBadInteger <;> rw [e]
    · exact State.causeExplained_of_none hc
    · exact ⟨nofun, fun _ => ⟨hpolicy, Nat.one_le_iff_ne_zero.2 h0, hseen, hbad⟩, nofun⟩
  · obtain e | e := s.dataLine_cases <;> rw [e] <;> exact State.causeExplained_of_none hc

/-- Besides EOL the instructions raise only causes that say nothing of the registers, and every one that does not raise
either leaves the state as it is or leaves no cause (R25, R121). -/
theorem exec_causeExplained {i : Instr} {s t : State} (h : exec i s = .next t) (hm : s.CauseMatchesPhase)
    (hs : s.CauseExplained) : t.CauseExplained := by
  obtain ⟨e, -⟩ | ⟨e, -, -⟩ | ⟨-, -, e⟩ | ⟨d, -, hp, e⟩ | ⟨-, hp, e⟩ | ⟨-, hp, -, e⟩ | ⟨-, -, e⟩ := exec_cases h <;>
    rw [e]
  · exact ⟨nofun, nofun, nofun⟩
  · exact hs
  · exact State.causeExplained_of_none rfl
  · exact State.causeExplained_of_none (by simpa [State.charInRun_eq] using State.cause_eq_none_of_run hp hm)
  · exact State.eolInRun_causeExplained (State.cause_eq_none_of_run hp hm)
  · have hnone := State.cause_eq_none_of_run hp hm
    exact State.causeExplained_of_none hnone
  · exact ⟨nofun, nofun, nofun⟩

theorem State.acceptReserved_causeExplained {s : State} (hs : s.CauseExplained) : s.acceptReserved.CauseExplained := by
  obtain ⟨-, e⟩ | ⟨-, e⟩ := s.acceptReserved_cases <;> rw [e]
  · exact ⟨nofun, nofun, nofun⟩
  · exact hs

/-- Settles O44: bit steps and a quiet host keep every register named, reset leaves no cause, a word does what its
command does. -/
theorem causeStaysExplained : Obligations.CauseStaysExplained := by
  intro s t hinv hs h
  obtain ⟨-, rfl⟩ | ⟨-, -, rfl⟩ | ⟨rest, -, -, rfl⟩ | ⟨w, rest, r, -, -, -, rfl⟩ | ⟨w, rest, i, -, -, -, h⟩ :=
    step_cases h
  · simpa [State.CauseExplained] using hs
  · exact hs
  · exact State.causeExplained_of_none rfl
  · exact State.acceptReserved_causeExplained (s := s.withInput rest) hs
  · obtain ⟨⟨-, -, -, -, -, -, -, hm, -⟩, -⟩ := hinv
    exact exec_causeExplained h hm hs

/-! ## A quiet host -/

theorem step_of_quiet {s : State} (hb : s.busy = false) (hi : s.input = []) : step s = .next s := by
  simp [step, State.fetch, hb, hi]

/-- Settles O9. -/
theorem quietHostChangesNothing : Obligations.QuietHostChangesNothing :=
  fun _ => step_of_quiet

/-! ## The ceiling of LINEIDX -/

/-- The ceiling is the first test of EOL, so it does not depend on what the line holds (R94, R129). -/
theorem State.eolInRun_of_full {s : State} (hfull : s.lineIdx = s.params.cntMax) :
    s.eolInRun = s.raise .counterOverflow := by
  obtain ⟨-, e⟩ | ⟨hroom, -⟩ | ⟨hroom, -⟩ | ⟨hroom, -⟩ | ⟨hroom, -⟩ := s.eolInRun_cases
  · exact e
  all_goals exact absurd hfull hroom

/-- Settles O21. -/
theorem eolFaultsAtCounterCeiling : Obligations.EolFaultsAtCounterCeiling := by
  refine ⟨rfl, fun s hrun hfull => ?_⟩
  rw [exec_eol_of_run hrun, State.eolInRun_of_full hfull]
  rfl

end Sys2Proof.Machine
end

section
/-!
The block at its ports against the command-level machine (70_reset_and_hazards.md R150, R152, R156, R157): what each
kind of clock edge answers, that it refines one step or none, and that no event is lost; and the events of one step.
-/

namespace Sys2Proof.Machine

/-! ## The events of one step -/

/-- Settles O15: a word appends the events of its command, and nothing else that a step does appends any. -/
theorem outputOnlyGrows : Obligations.OutputOnlyGrows := by
  intro s t h
  obtain ⟨-, rfl⟩ | ⟨-, -, rfl⟩ | ⟨rest, -, -, rfl⟩ | ⟨w, rest, r, -, -, -, rfl⟩ | ⟨w, rest, i, -, -, -, h⟩ :=
    step_cases h
  · exact ⟨[], by simp⟩
  · exact ⟨[], by simp⟩
  · exact ⟨[], by simp⟩
  · exact (s.withInput rest).acceptReserved_output
  · exact exec_output (s := s.withInput rest) h

/-! ## What each kind of edge answers -/

section
variable {p : PortState} {pins : Pins}

theorem PortState.edge_of_reset (hrst : pins.rst = true) : p.edge pins = .next p.resetEdge := by
  simp [PortState.edge, hrst]

theorem PortState.edge_of_unstable (hrst : pins.rst = false) (hu : p.unstable pins = true) :
    p.edge pins = .refused .unstableCommand := by
  simp [PortState.edge, hrst, hu]

theorem PortState.edge_of_accept {t : State} (hrst : pins.rst = false) (hu : p.unstable pins = false)
    (hready : p.cmdReady = true) (hvalid : pins.cmdValid = true) (ht : p.core.acceptWord pins.cmd = .next t) :
    p.edge pins = .next (p.afterAccept pins t) := by
  simp [PortState.edge, hrst, hu, hready, hvalid, ht]

theorem PortState.edge_of_idle (hrst : pins.rst = false) (hu : p.unstable pins = false) (hready : p.cmdReady = true)
    (hvalid : pins.cmdValid = false) : p.edge pins = .next p.idleEdge := by
  simp [PortState.edge, hrst, hu, hready, hvalid]

theorem PortState.edge_of_not_ready (hrst : pins.rst = false) (hu : p.unstable pins = false)
    (hready : p.cmdReady = false) : p.edge pins = .next (p.busyEdge pins) := by
  simp [PortState.edge, hrst, hu, hready]

/-- The host changes a word that waits: one was offered at the edge before, and another is valid now (R152). -/
theorem PortState.unstable_iff :
    p.unstable pins = true ↔ pins.cmdValid = true ∧ ∃ w, p.offered = some w ∧ w ≠ pins.cmd := by
  cases h : p.offered <;> simp [PortState.unstable, h]

end

/-- Settles O57. -/
theorem changedCommandIsRefused : Obligations.ChangedCommandIsRefused :=
  fun _ _ w hrst hvalid hoffered hne =>
    PortState.edge_of_unstable hrst (PortState.unstable_iff.2 ⟨hvalid, w, hoffered, hne⟩)

/-- Settles O55: reset is tested before every other pin. -/
theorem resetFallsAnywhere : Obligations.ResetFallsAnywhere :=
  fun p _ hrst => ⟨p.resetEdge, PortState.edge_of_reset hrst, rfl, rfl, rfl⟩

/-! ## An edge refines one step or none -/

/-- Every word is accepted in every state (R110). -/
theorem State.exists_acceptWord (w : CmdWord) (s : State) : ∃ t, s.acceptWord w = .next t := by
  unfold State.acceptWord
  cases decode w with
  | reserved r => exact ⟨_, rfl⟩
  | instr i =>
    cases i with
    | char d =>
      by_cases hp : s.phase = .run
      · exact ⟨_, if_pos hp⟩
      · obtain ⟨t, ht⟩ := exec_total (.char d) s
        exact ⟨t, (if_neg hp).trans ht⟩
    | start | eol | eos | abort => exact exec_total _ s

/-- Once the bit steps of a CHAR are done, the acceptance of a word is the whole effect of its command (R82, R156). -/
theorem State.accepts_finishByte_of_acceptWord {s t : State} {w : CmdWord} (hs : s.EngineAtRest)
    (h : s.acceptWord w = .next t) : s.Accepts w t.finishByte := by
  obtain ⟨d, hw, hp, rfl⟩ | ⟨i, hw, h, -⟩ | ⟨r, hw, rfl⟩ := State.acceptWord_cases h
  · exact .inl ⟨.char d, hw, exec_char_of_run d hp⟩
  · obtain ⟨-, -, hb⟩ := exec_engineAtRest h hs
    exact .inl ⟨i, hw, by rwa [State.finishByte_of_rest t hb]⟩
  · obtain ⟨-, -, hb⟩ := State.acceptReserved_engineAtRest hs
    exact .inr ⟨r, hw, State.finishByte_of_rest _ hb⟩

/-- A word presented and accepted is one step (R50, R156). -/
theorem State.Accepts.step_eq {w : CmdWord} {s t : State} (h : s.Accepts w t) (hb : s.busy = false) :
    step { s with input := .command w :: s.input } = .next t := by
  obtain ⟨i, hw, h⟩ | ⟨r, hw, rfl⟩ := h
  · exact (step_of_instr (s := { s with input := .command w :: s.input }) hb rfl hw).trans h
  · exact step_of_reserved (s := { s with input := .command w :: s.input }) hb rfl hw

/-- Reset in the midst of the bit steps leaves what reset after them leaves (R150). -/
theorem State.finishByte_resetBlock (s : State) : s.finishByte.resetBlock = s.resetBlock := by
  simp [State.resetBlock]

/-- Bit steps at whatever pace leave the completed state as it is (R82). -/
theorem PortState.busyEdge_completed (p : PortState) (pins : Pins) : (p.busyEdge pins).completed = p.completed :=
  State.finishByte_runEngine pins.bitSteps p.core

theorem PortState.afterAccept_completed (p : PortState) (pins : Pins) (t : State) :
    (p.afterAccept pins t).completed = t.finishByte :=
  State.finishByte_runEngine pins.bitSteps t

/-- Settles O51, one kind of edge at a time. -/
theorem portsRefineCommandSteps : Obligations.PortsRefineCommandSteps := by
  intro p pins hp hstable
  obtain ⟨-, -, hidle⟩ := hp
  cases hrst : pins.rst with
  | true => exact ⟨p.resetEdge, PortState.edge_of_reset hrst, p.core.finishByte_resetBlock.symm⟩
  | false =>
    have hu : p.unstable pins = false := by
      rw [← Bool.not_eq_true, PortState.unstable_iff]
      rintro ⟨hvalid, w, hoffered, hne⟩
      exact hne (hstable hrst hvalid w hoffered)
    cases hready : p.cmdReady with
    | false => exact ⟨_, PortState.edge_of_not_ready hrst hu hready, p.busyEdge_completed pins⟩
    | true =>
      cases hvalid : pins.cmdValid with
      | false => exact ⟨_, PortState.edge_of_idle hrst hu hready hvalid, rfl⟩
      | true =>
        obtain ⟨hb, -⟩ := (PortState.cmdReady_iff p).1 hready
        obtain ⟨t, ht⟩ := State.exists_acceptWord pins.cmd p.core
        refine ⟨_, PortState.edge_of_accept hrst hu hready hvalid ht, ?_⟩
        rw [PortState.afterAccept_completed]
        exact (State.accepts_finishByte_of_acceptWord (hidle hb) ht).step_eq hb

/-! ## No event is lost -/

@[simp] theorem State.runEngine_output (n : Nat) (s : State) : (State.runEngine n s).output = s.output :=
  (congrArg (fun x : State => x.output) (State.runEngine_outside n s) :)

/-- The acceptance of a word appends to the output, from any state (R157). -/
theorem State.acceptWord_output {s t : State} {w : CmdWord} (h : s.acceptWord w = .next t) :
    ∃ evs : List Event, t.output = s.output ++ evs := by
  obtain ⟨d, -, -, rfl⟩ | ⟨i, -, h, -⟩ | ⟨r, -, rfl⟩ := State.acceptWord_cases h
  · exact ⟨[], by simp [State.acceptChar]⟩
  · obtain ⟨evs, -, hout⟩ := exec_output h
    exact ⟨evs, hout⟩
  · obtain ⟨evs, -, hout⟩ := s.acceptReserved_output
    exact ⟨evs, hout⟩

/-- The events of the command accepted are those that wait after it, and none waited before (R156, R157). -/
theorem PortState.afterAccept_allDelivered {p : PortState} {pins : Pins} {t : State} (hready : p.cmdReady = true)
    (ht : p.core.acceptWord pins.cmd = .next t) (h : p.AllDelivered) : (p.afterAccept pins t).AllDelivered := by
  obtain ⟨-, hwaiting⟩ := (PortState.cmdReady_iff p).1 hready
  obtain ⟨evs, hout⟩ := State.acceptWord_output ht
  have htaken : p.taken = p.core.output := by simpa [PortState.AllDelivered, hwaiting] using h
  simp [PortState.AllDelivered, PortState.afterAccept, htaken, hout]

section
variable {p : PortState} {pins : Pins}

/-- The event on the port is the first of those that wait (R157). -/
theorem PortState.evt_toList (hvalid : p.evtValid = true) : p.evt.toList = p.waiting.take 1 := by
  cases hw : p.waiting <;> simp [PortState.evt, hvalid, hw]

/-- An edge that takes the event on the port moves it from those that wait to those taken (R157). -/
theorem PortState.busyEdge_of_taken (hvalid : p.evtValid = true) (hready : pins.evtReady = true) :
    (p.busyEdge pins).taken = p.taken ++ p.evt.toList ∧ (p.busyEdge pins).waiting = p.waiting.tail := by
  simp [PortState.busyEdge, PortState.eventTaken, hvalid, hready, PortState.evt_toList]

/-- An edge that takes no event keeps those that wait and those taken (R157). -/
theorem PortState.busyEdge_of_not_taken (h : p.eventTaken pins = false) :
    (p.busyEdge pins).taken = p.taken ∧ (p.busyEdge pins).waiting = p.waiting := by
  simp [PortState.busyEdge, h]

/-- An event on the port that the host does not take stays there (R157). -/
theorem PortState.busyEdge_of_held (hvalid : p.evtValid = true) (hready : pins.evtReady = false) :
    (p.busyEdge pins).evtValid = true ∧ (p.busyEdge pins).evt = p.evt ∧ (p.busyEdge pins).taken = p.taken := by
  have ht : p.eventTaken pins = false := by simp [PortState.eventTaken, hready]
  obtain ⟨hshown, hne⟩ := (PortState.evtValid_iff p).1 hvalid
  obtain ⟨htaken, hwaiting⟩ := PortState.busyEdge_of_not_taken ht
  have hstill : (p.busyEdge pins).evtValid = true :=
    (PortState.evtValid_iff _).2 ⟨by simp [PortState.busyEdge, ht, hshown], by rwa [hwaiting]⟩
  refine ⟨hstill, ?_, htaken⟩
  rw [PortState.evt, PortState.evt, if_pos hstill, if_pos hvalid, hwaiting]

theorem PortState.busyEdge_allDelivered (h : p.AllDelivered) : (p.busyEdge pins).AllDelivered := by
  have hcore : (p.busyEdge pins).core.output = p.core.output := State.runEngine_output pins.bitSteps p.core
  rw [PortState.AllDelivered, hcore, ← h]
  cases ht : p.eventTaken pins with
  | false =>
    obtain ⟨htaken, hwaiting⟩ := PortState.busyEdge_of_not_taken ht
    rw [htaken, hwaiting]
  | true =>
    obtain ⟨hvalid, hready⟩ : p.evtValid = true ∧ pins.evtReady = true := by simpa [PortState.eventTaken] using ht
    obtain ⟨htaken, hwaiting⟩ := PortState.busyEdge_of_taken hvalid hready
    rw [htaken, hwaiting, PortState.evt_toList hvalid, List.append_assoc, ← List.drop_one, List.take_append_drop]

end

/-- Settles O54: an edge that finds the block ready finds no event on the port, and every other edge without reset takes
the event there or holds it. -/
theorem noEventIsLost : Obligations.NoEventIsLost := by
  intro p q pins hrst h
  obtain ⟨hr, -⟩ | ⟨t, -, -, hready, -, ht, rfl⟩ | ⟨-, hready, -, rfl⟩ | ⟨-, -, -, rfl⟩ := PortState.edge_cases h
  · exact absurd (hrst.symm.trans hr) nofun
  · have hnone := PortState.evtValid_of_cmdReady hready
    simp only [hnone]
    exact ⟨PortState.afterAccept_allDelivered hready ht, nofun, nofun, fun _ => rfl⟩
  · have hnone := PortState.evtValid_of_cmdReady hready
    simp only [hnone]
    exact ⟨id, nofun, nofun, fun _ => rfl⟩
  · refine ⟨PortState.busyEdge_allDelivered, fun hv hr => (PortState.busyEdge_of_taken hv hr).1,
      PortState.busyEdge_of_held, fun hv => (PortState.busyEdge_of_not_taken ?_).1⟩
    simp [PortState.eventTaken, hv]

end Sys2Proof.Machine
end

section
/-!
The results of runs against the reference (00_scope.md R9; 42_run_commands.md R115, R116; 70_reset_and_hazards.md R151,
R160): a run has its result at the word that ends it, the words left of it after a fault add none, and what follows has
the results it has from the state at the end.
-/

namespace Sys2Proof.Machine

/-! ## What one word adds to the results -/

section
variable {w : CmdWord} {s t : State} (h : s.Accepts w t) (hb : s.busy = false)
include h hb

/-- A word adds the result of the run it ends, if it ends one. -/
theorem State.Accepts.resultsFrom_cons (n : Nat) (rest : List PortInput) :
    State.resultsFrom n (.command w :: rest) s =
      (if s.endsRun w t then [t.reportRun (s.eventsBefore n)] else []) ++
        State.resultsFrom (s.eventsBefore n) rest t := by
  obtain ⟨i, hw, h⟩ | ⟨r, hw, rfl⟩ := h
  · exact State.resultsFrom_instr n rest hb hw h
  · exact State.resultsFrom_reserved n rest hb hw

/-- With no run open, every word but an ABORT in IDLE adds nothing (R9). -/
theorem State.Accepts.runResults_of_closed (hp : s.phase ≠ .run) (hw : ¬(s.phase = .idle ∧ w = encode .abort))
    (rest : List PortInput) :
    s.runResults (.command w :: rest) = State.resultsFrom s.output.length rest t := by
  rw [State.runResults, h.resultsFrom_cons hb, State.eventsBefore_of_closed hp,
    if_neg (mt (State.endsRun_iff_of_closed hp).1 hw), List.nil_append]

/-- A word that leaves the run open adds nothing (R160). -/
theorem State.Accepts.resultsFrom_of_open (hp : s.phase = .run) (ht : t.phase = .run) (n : Nat)
    (rest : List PortInput) : State.resultsFrom n (.command w :: rest) s = State.resultsFrom n rest t := by
  rw [h.resultsFrom_cons hb, State.eventsBefore_of_run hp]
  simp [State.endsRun, hp, ht]

/-- The word that ends the run adds its result, and what follows has the results it has from there (R160). -/
theorem State.Accepts.resultsFrom_of_end (hp : s.phase = .run) (ht : t.phase = .done ∨ t.phase = .faulted) (n : Nat)
    (rest : List PortInput) :
    State.resultsFrom n (.command w :: rest) s = t.reportRun n :: t.runResults rest := by
  have hclosed : t.phase ≠ .run := by obtain ht | ht := ht <;> simp [ht]
  have hends : s.endsRun w t = true := by simpa [State.endsRun, hp] using ht
  rw [h.resultsFrom_cons hb, State.eventsBefore_of_run hp, if_pos hends,
    State.resultsFrom_of_closed hclosed n t.output.length, State.runResults, List.singleton_append]

end

/-- After a fault the words that are not START add no result (R115). -/
theorem State.runResults_of_faulted {s : State} (ws : List CmdWord) (more : List PortInput) (hb : s.busy = false)
    (hp : s.phase = .faulted) (hstart : encode .start ∉ ws) :
    s.runResults (ws.map .command ++ more) = s.runResults more := by
  induction ws with
  | nil => rfl
  | cons w ws ih =>
    obtain ⟨hw, hws⟩ := List.ne_and_not_mem_of_not_mem_cons hstart
    obtain ⟨t, ht⟩ := s.exists_accepts w
    obtain rfl : t = s := ht.eq_of_faulted hp hw.symm
    exact (ht.runResults_of_closed hb (by simp [hp]) (by simp [hp]) _).trans (ih hws)

/-! ## How a run goes on and ends -/

/-- EOL leaves the run open or faults (R110). -/
theorem State.eolInRun_phase {s : State} (hp : s.phase = .run) :
    s.eolInRun.phase = .run ∨ s.eolInRun.phase = .faulted := by
  obtain ⟨-, e⟩ | ⟨-, ⟨-, e⟩ | ⟨-, ⟨c, -, ⟨-, e⟩ | ⟨-, e⟩⟩ | e | e⟩⟩ := s.eolInRun_ends <;> rw [e]
  · exact .inr rfl
  · exact .inl hp
  · exact .inl hp
  · exact .inr rfl
  · exact .inl hp
  · exact .inl hp

/-- In phase RUN every instruction but EOS leaves the run open or faults (R110). -/
theorem exec_phase_of_run {i : Instr} {s t : State} (h : exec i s = .next t) (hp : s.phase = .run) (hi : i ≠ .eos) :
    t.phase = .run ∨ t.phase = .faulted := by
  obtain ⟨e, -⟩ | ⟨e, -, -⟩ | ⟨-, -, e⟩ | ⟨d, -, -, e⟩ | ⟨-, -, e⟩ | ⟨heos, -⟩ | ⟨-, -, e⟩ := exec_cases h
  · exact e ▸ .inr rfl
  · exact e ▸ .inl hp
  · exact e ▸ .inl rfl
  · exact .inl (by simpa [e, State.charInRun_eq] using hp)
  · exact e ▸ State.eolInRun_phase hp
  · exact absurd heos hi
  · exact e ▸ .inr rfl

/-- In phase RUN every word but that of EOS leaves the run open or faults (R110). -/
theorem State.Accepts.phase_of_run {w : CmdWord} {s t : State} (h : s.Accepts w t) (hp : s.phase = .run)
    (hw : w ≠ encode .eos) : t.phase = .run ∨ t.phase = .faulted := by
  obtain ⟨i, hi, h⟩ | ⟨r, -, rfl⟩ := h
  · refine exec_phase_of_run h hp ?_
    rintro rfl
    exact hw (encode_of_decode hi).symm
  · obtain ⟨-, e⟩ | ⟨-, e⟩ := s.acceptReserved_cases <;> rw [e]
    · exact .inr rfl
    · exact .inl hp

/-- EOS ends the run, with a SUMMARY or with a fault (R112). -/
theorem exec_eos_ends {s t : State} (h : exec .eos s = .next t) (hp : s.phase = .run) :
    t.phase = .done ∨ t.phase = .faulted := by
  cases hd : s.dirty with
  | false => rw [exec_eos_of_clean hp hd] at h; cases h; exact .inl rfl
  | true => rw [exec_eos_of_dirty hp hd] at h; cases h; exact .inr rfl

/-- An open run whose words end with the first EOS has one result, that of the state after them, whether EOS or a fault
before it ended the run; the results of what follows come after it (R160, R115). -/
theorem State.resultsFrom_until_eos {s t : State} (ws : List CmdWord) (n : Nat) (more : List PortInput)
    (hp : s.phase = .run) (hs : s.EngineAtRest) (heos : encode .eos ∉ ws)
    (hstart : encode .start ∉ ws ++ [encode .eos]) (h : s.afterWords (ws ++ [encode .eos]) = .next t) :
    State.resultsFrom n ((ws ++ [encode .eos]).map .command ++ more) s = t.reportRun n :: t.runResults more := by
  induction ws generalizing s with
  | nil =>
    obtain ⟨-, -, hb⟩ := hs
    obtain ⟨u, hu⟩ := exec_total .eos s
    have haccepts := State.accepts_encode hu
    obtain rfl : u = t := by simpa [haccepts.afterWords_cons hb, State.afterWords_nil] using h
    exact haccepts.resultsFrom_of_end hb hp (exec_eos_ends hu hp) n more
  | cons w ws ih =>
    obtain ⟨hw, hws⟩ := List.ne_and_not_mem_of_not_mem_cons heos
    rw [List.cons_append] at h hstart
    obtain ⟨-, hstart'⟩ := List.ne_and_not_mem_of_not_mem_cons hstart
    obtain ⟨u, hu⟩ := s.exists_accepts w
    have hrest := hu.engineAtRest hs
    obtain ⟨-, -, hb⟩ := hs
    obtain ⟨-, -, hb'⟩ := id hrest
    rw [hu.afterWords_cons hb] at h
    obtain hopen | hfault := hu.phase_of_run hp hw.symm
    · exact (hu.resultsFrom_of_open hb hp hopen n _).trans (ih hopen hrest hws hstart' h)
    · obtain rfl : u = t := by simpa [faultIsSticky u _ hb' hfault hstart'] using h
      rw [← State.runResults_of_faulted (ws ++ [encode .eos]) more hb' hfault hstart']
      exact hu.resultsFrom_of_end hb hp (.inr hfault) n _

/-! ## The result of a whole run -/

/-- The result of a run that VALIDATE judges so (R116, R160). -/
def RunVerdict.result : RunVerdict → RunResult
  | .done checked failed skipped events => .summary checked failed skipped events
  | .faulted cause line events => .failure cause line events

/-- A block that stands at the end of a run as VALIDATE says reports what VALIDATE says (R160). -/
theorem State.EndsAs.reportRun_eq {n : Nat} {before : List Event} {t : State} {v : RunVerdict}
    (h : t.EndsAs n before v) : t.reportRun before.length = v.result := by
  cases v with
  | done =>
    obtain ⟨hp, -, -, rfl, rfl, rfl, -, hout⟩ := h
    simp [State.reportRun, RunVerdict.result, hp, hout]
  | faulted =>
    obtain ⟨hp, rfl, rfl, hout⟩ := h
    simp [State.reportRun, RunVerdict.result, hp, hout]

/-- The words of a source hold no EOS (R59). -/
theorem encode_eos_not_mem_sourceWords (lines : List (List Byte)) : encode .eos ∉ sourceWords lines := by
  simp [sourceWords, lineWords, textWords, encode_injective.eq_iff]

/-- The run `RUN lines` has one result, that of the state at its end, and the results of what follows come after it
(R9, R160). -/
theorem State.runResults_runWords {s t : State} (lines : List (List Byte)) (more : List PortInput)
    (hp : s.phase ≠ .run) (hs : s.EngineAtRest) (h : s.afterWords (runWords lines) = .next t) :
    s.runResults ((runWords lines).map .command ++ more) = t.reportRun s.output.length :: t.runResults more := by
  have hstart : ¬(s.phase = .idle ∧ encode .start = encode .abort) := by simp [encode_injective.eq_iff]
  obtain ⟨-, -, hb⟩ := id hs
  rw [runWords, State.afterWords_start _ hp hs] at h
  exact ((State.accepts_encode (exec_start_of_closed hp)).runResults_of_closed hb hp hstart _).trans
    (State.resultsFrom_until_eos (sourceWords lines) s.output.length more rfl hs (encode_eos_not_mem_sourceWords lines)
      (encode_start_not_mem_sourceWords_eos lines) h)

/-- Settles O59: the run has the result of the state at its end, which stands as VALIDATE says. -/
theorem runResultIsReferenceResult : Obligations.RunResultIsReferenceResult := by
  intro s lines more hvalid hp hs hroom
  change s.runResult _ = (validate s.params lines).result ∧
    ∃ t : State, _ ∧ s.runResults _ = (validate s.params lines).result :: t.runResults more
  obtain ⟨t, ht, hend⟩ := State.afterWords_runWords lines hvalid hp hs hroom
  have hresults := State.runResults_runWords lines more hp hs ht
  rw [hend.reportRun_eq] at hresults
  exact ⟨by rw [State.runResult, hresults, List.headD_cons], t, ht, hresults⟩

end Sys2Proof.Machine
end
